-- ==== Sys2Proof/Word.lean ====
section
/-! DEFINITION. The words of the block: unsigned values of the widths the spec states (R8, R41, R42). Bit 0 is the least significant bit. -/

namespace Sys2Proof

/-- A table index or bucket index, format `IDX` (R41). -/
abbrev U5 := BitVec 5
/-- A leading-zero count, format `CNT` (R41). -/
abbrev U6 := BitVec 6
/-- A table word or a value of format `Q16n` (R41). -/
abbrev U16 := BitVec 16
/-- MUL16's working register `pp` (R17). -/
abbrev U20 := BitVec 20
/-- The operand, the result and every `Q16` value (R40, R41). -/
abbrev U32 := BitVec 32
/-- The multiplicand and product of MULSA, and the `Q32` square (R41, R61). -/
abbrev U64 := BitVec 64

end Sys2Proof
end

