-- ==== Sys2Proof/Machine/Operands.lean ====
section
/-! DEFINITION. The constants wired into the datapath (R43), the operand splits (R45), the bucket condition of R77 and the shift amounts of R44. -/

namespace Sys2Proof.Machine

/-- `THREE_Q16` (R43). -/
def threeQ16 : U32 := 0x00030000#32
/-- `HALF17` (R43): half of `2^17`, added before the shift right by 17. -/
def half17 : U64 := 0x00010000#64
/-- `ONE_AFTER16` (R43): the same rounding constant once the product has been shifted right by 16. -/
def oneAfter16 : U32 := 1#32
/-- `CLAMP_NEXT` (R43, R73). -/
def clampNext : U16 := 1#16

/-- The upper half of a 32-bit value: `xh`, `qh` (R45), and the integer part of a Q16 value (R40 format `FY`). -/
def upperHalf (v : U32) : U16 := v.extractLsb' 16 16
/-- The lower half of a 32-bit value: `xl`, `ql`, `tf`, `y16` (R45), and the fraction of a Q16 value (R40 format `FY`). -/
def lowerHalf (v : U32) : U16 := v.extractLsb' 0 16
/-- `ti = term[17:16]` (R45): the integer part of `term`. -/
def termInt (term : U32) : BitVec 2 := term.extractLsb' 16 2
/-- Nibble `k` of MUL16's second operand, `b[4k+3:4k]` (R45, R66). -/
def nibble (b : U16) (k : Nat) : BitVec 4 := b.extractLsb' (4 * k) 4
/-- `p[47:16]` (R85, R86): the 64-bit product shifted right by 16, 32 bits kept. -/
def bits47to16 (p : U64) : U32 := p.extractLsb' 16 32
/-- `s[48:17]` (R85, R86): the rounded product shifted right by 17, 32 bits kept. -/
def bits48to17 (s : U64) : U32 := s.extractLsb' 17 32

/-- `2^exp <= x < 2^(exp+1)`: `x` lies in the range bucket `exp` (R71, R77). No bucket holds 0. -/
def inBucket (x : U32) (exp : U5) : Bool :=
  decide (2 ^ exp.toNat ≤ x.toNat) && decide (x.toNat < 2 ^ (exp.toNat + 1))

/-- FRAC's right-shift amount `exp - 16`, used when `exp >= 16` (R44). -/
def fracRightShift (exp : U5) : Nat := exp.toNat - 16
/-- FRAC's left-shift amount `16 - exp`, used when `exp < 16` (R44). -/
def fracLeftShift (exp : U5) : Nat := 16 - exp.toNat

end Sys2Proof.Machine
end

