-- ==== Sys2Proof/Config.lean ====
section
/-! DEFINITION. What an instance of the block fixes when it is built (R3, R7), and the values the spec leaves open: constants with no body, so that nothing can be proved about which value they are. -/

namespace Sys2Proof

/-- `VARIANT` (R3, R7): an instance is exactly one of the two, and no request changes which. -/
inductive Variant where
  /-- The reference variant: products by MULSA, two Newton steps. -/
  | ref
  /-- The optimal variant: products by MUL16, one Newton step. -/
  | opt
  deriving DecidableEq, Repr

/-- The variant that the constant `State.reset` shows. DESIGN CHOICE (log 1): the spec fixes VARIANT per instance and names no default. -/
def Config.resetVariant : Variant := .ref

/-- `exp` of RANGE for `x = 0`, which R75 and U1 leave without a value (log 8). -/
opaque Config.openExp : Nat → U5
/-- `y_base` of RANGE for `x = 0` (R75, U1; log 8). -/
opaque Config.openBase : Nat → U16
/-- `y_next` of RANGE for `x = 0` (R75, U1; log 8). -/
opaque Config.openNext : Nat → U16
/-- `frac` where `x` is not in the bucket `exp`, so that R77 states no 16-bit value (log 9). -/
opaque Config.openFrac : Nat → U16
/-- `delta` where `y_base < y_next`, for which R78 gives no wrap rule (log 10). -/
opaque Config.openDelta : Nat → U16
/-- `y0` where `y_base < (prod >> 16)`, for which R80 gives no wrap rule (log 10). -/
opaque Config.openSeed : Nat → U16
/-- MULSA's register `A` outside a multiplication (R20, U8; log 13). -/
opaque Config.openMulsaA : Nat → U64
/-- MULSA's register `B` outside a multiplication (R20, U8; log 13). -/
opaque Config.openMulsaB : Nat → U32
/-- MULSA's register `ACC` outside a multiplication (R20, U8; log 13). -/
opaque Config.openMulsaAcc : Nat → U64
/-- MUL16's register `acc` outside a multiplication (R20, U8; log 13). -/
opaque Config.openMul16Acc : Nat → U32
/-- MUL16's register `pp` outside a multiplication (R20, U8; log 13). -/
opaque Config.openMul16Pp : Nat → U20
/-- A step counter after a reset event (R20, U8; log 14). -/
opaque Config.openStepCounter : Nat → Nat

end Sys2Proof
end

