-- ==== Sys2Proof/Syntax.lean ====
section
/-! DEFINITION. The block's operations (R46, one constructor per row of the operation table), the requests that ask for them (R40, R42) and the responses (R42). -/

namespace Sys2Proof

/-- The operations of R46, with the operand tuples of R42 in R42's order. -/
inductive Instr where
  /-- `RSQRT.REF` (R102). -/
  | rsqrtRef (x : U32)
  /-- `RSQRT.OPT` (R103). -/
  | rsqrtOpt (x : U32)
  /-- `CLZ32` (R56). -/
  | clz32 (v : U32)
  /-- `MULSA` (R61): multiplicand `a`, multiplier `b`. -/
  | mulsa (a : U64) (b : U32)
  /-- `MUL16` (R65): `b` is the nibble-split operand. -/
  | mul16 (a b : U16)
  /-- `XY2.OPT` (R68). -/
  | xy2Opt (x sq : U32)
  /-- `ROMRD` (R30). -/
  | romrd (i : U5)
  /-- `RANGE` (R71). -/
  | range (x : U32)
  /-- `FRAC` (R77). -/
  | frac (x : U32) (exp : U5)
  /-- `INTERP.REF` (R82). -/
  | interpRef (x : U32) (exp : U5) (yBase yNext : U16)
  /-- `INTERP.OPT` (R82). -/
  | interpOpt (x : U32) (exp : U5) (yBase yNext : U16)
  /-- `NEWTON.REF` (R86). -/
  | newtonRef (x y : U32)
  /-- `NEWTON.OPT` (R87). -/
  | newtonOpt (x y : U32)
  deriving DecidableEq, Repr

/-- The mnemonics of R46, the names of the textual notation (R50). -/
def Instr.mnemonic : Instr → String
  | .rsqrtRef _ => "RSQRT.REF"
  | .rsqrtOpt _ => "RSQRT.OPT"
  | .clz32 _ => "CLZ32"
  | .mulsa _ _ => "MULSA"
  | .mul16 _ _ => "MUL16"
  | .xy2Opt _ _ => "XY2.OPT"
  | .romrd _ => "ROMRD"
  | .range _ => "RANGE"
  | .frac _ _ => "FRAC"
  | .interpRef _ _ _ _ => "INTERP.REF"
  | .interpOpt _ _ _ _ => "INTERP.OPT"
  | .newtonRef _ _ => "NEWTON.REF"
  | .newtonOpt _ _ => "NEWTON.OPT"

/-- A request: which unit is asked, and the request word at that unit's port. No bit of a word selects an
operation: "the operation is selected by which unit is used" (R46, D21). `rsqrt` is the block's one port (R40);
the others are R42's request words of the units on their own. A port is exactly as wide as its unit's contract, so a
wider word cannot be written (R48). -/
inductive Request where
  /-- The block's request, format `FX`: the whole word is the operand (R40). -/
  | rsqrt (word : BitVec 32)
  | rsqrtRef (word : BitVec 32)
  | rsqrtOpt (word : BitVec 32)
  | clz32 (word : BitVec 32)
  | mulsa (word : BitVec 96)
  | mul16 (word : BitVec 32)
  | xy2Opt (word : BitVec 64)
  | romrd (word : BitVec 5)
  | range (word : BitVec 32)
  | frac (word : BitVec 37)
  | interpRef (word : BitVec 69)
  | interpOpt (word : BitVec 69)
  | newtonRef (word : BitVec 64)
  | newtonOpt (word : BitVec 64)
  deriving DecidableEq, Repr

/-- A response: the result tuple of the operation (R42). -/
inductive Response where
  /-- `Y`, the result of RSQRT (R12, R40 format `FY`). -/
  | y (value : U32)
  /-- `n` of CLZ32. -/
  | count (n : U6)
  /-- `prod` of MULSA. -/
  | prod64 (prod : U64)
  /-- `prod` of MUL16. -/
  | prod32 (prod : U32)
  /-- `xy2` of XY2.OPT. -/
  | xy2 (value : U32)
  /-- `w` of ROMRD. -/
  | word (w : U16)
  /-- `exp`, `y_base`, `y_next` of RANGE. -/
  | bucket (exp : U5) (yBase yNext : U16)
  /-- `frac` of FRAC. -/
  | frac (value : U16)
  /-- `y0` of INTERP. -/
  | seed (y0 : U16)
  /-- `y'` of NEWTON. -/
  | estimate (value : U32)
  deriving DecidableEq, Repr

end Sys2Proof
end

