-- ==== Sys2Proof/WellFormed.lean ====
section
/-! DEFINITION. The operand contracts of the operations: what an operation's rule asks of its operand tuple. An operation outside its contract still runs (its open values are free); it is not ill-formed as a request, because every request word is legal (R47). -/

namespace Sys2Proof

/-- The operand tuple meets the contract its rule states: RANGE needs `x ≠ 0` (R71, R75), FRAC needs `x` in the bucket `exp`
(R77), INTERP needs that and a table drop that is not negative (R78, R82). Every other operation takes every tuple (R48). -/
def Instr.wellFormed : Instr → Bool
  | .rsqrtRef _ => true
  | .rsqrtOpt _ => true
  | .clz32 _ => true
  | .mulsa _ _ => true
  | .mul16 _ _ => true
  | .xy2Opt _ _ => true
  | .romrd _ => true
  | .range x => x != 0#32
  | .frac x exp => Machine.inBucket x exp
  | .interpRef x exp yBase yNext => Machine.inBucket x exp && decide (yNext.toNat ≤ yBase.toNat)
  | .interpOpt x exp yBase yNext => Machine.inBucket x exp && decide (yNext.toNat ≤ yBase.toNat)
  | .newtonRef _ _ => true
  | .newtonOpt _ _ => true

end Sys2Proof
end

