-- ==== Sys2Proof/Decode.lean ====
section
/-! DEFINITION. From request words to operations and back (R40, R42, R46). At a port decoding is total and no word is refused (R47); from a bare word of a given width it is total too, and refuses by name. -/

namespace Sys2Proof

/-- The operation a request asks for: the operand tuple cut from the request word, first operand in the most significant bits
(R42). The block's own request is the operand itself (R40), and which RSQRT it is follows from `VARIANT` (R50, R100). -/
def decode (v : Variant) : Request → Instr
  | .rsqrt w => match v with
    | .ref => .rsqrtRef w
    | .opt => .rsqrtOpt w
  | .rsqrtRef w => .rsqrtRef w
  | .rsqrtOpt w => .rsqrtOpt w
  | .clz32 w => .clz32 w
  | .mulsa w => .mulsa (w.extractLsb' 32 64) (w.extractLsb' 0 32)
  | .mul16 w => .mul16 (w.extractLsb' 16 16) (w.extractLsb' 0 16)
  | .xy2Opt w => .xy2Opt (w.extractLsb' 32 32) (w.extractLsb' 0 32)
  | .romrd w => .romrd w
  | .range w => .range w
  | .frac w => .frac (w.extractLsb' 5 32) (w.extractLsb' 0 5)
  | .interpRef w =>
    .interpRef (w.extractLsb' 37 32) (w.extractLsb' 32 5) (w.extractLsb' 16 16) (w.extractLsb' 0 16)
  | .interpOpt w =>
    .interpOpt (w.extractLsb' 37 32) (w.extractLsb' 32 5) (w.extractLsb' 16 16) (w.extractLsb' 0 16)
  | .newtonRef w => .newtonRef (w.extractLsb' 32 32) (w.extractLsb' 0 32)
  | .newtonOpt w => .newtonOpt (w.extractLsb' 32 32) (w.extractLsb' 0 32)

/-- The request that asks for an operation: its unit, and the concatenation of its operands (R42, `{a, b}` of R9). -/
def encode : Instr → Request
  | .rsqrtRef x => .rsqrtRef x
  | .rsqrtOpt x => .rsqrtOpt x
  | .clz32 v => .clz32 v
  | .mulsa a b => .mulsa (a ++ b)
  | .mul16 a b => .mul16 (a ++ b)
  | .xy2Opt x sq => .xy2Opt (x ++ sq)
  | .romrd i => .romrd i
  | .range x => .range x
  | .frac x exp => .frac (x ++ exp)
  | .interpRef x exp yBase yNext => .interpRef (((x ++ exp) ++ yBase) ++ yNext)
  | .interpOpt x exp yBase yNext => .interpOpt (((x ++ exp) ++ yBase) ++ yNext)
  | .newtonRef x y => .newtonRef (x ++ y)
  | .newtonOpt x y => .newtonOpt (x ++ y)

/-- The width of a request word in bits: the `width` of its row in the operation table (R42). -/
def Request.width : Request → Nat
  | .rsqrt _ => 32
  | .rsqrtRef _ => 32
  | .rsqrtOpt _ => 32
  | .clz32 _ => 32
  | .mulsa _ => 96
  | .mul16 _ => 32
  | .xy2Opt _ => 64
  | .romrd _ => 5
  | .range _ => 32
  | .frac _ => 37
  | .interpRef _ => 69
  | .interpOpt _ => 69
  | .newtonRef _ => 64
  | .newtonOpt _ => 64

/-- Why a bare word is no request. -/
inductive WordError where
  /-- No operation has request words of this many bits. -/
  | noSuchWidth (nbits : Nat)
  /-- The word has bits above the port's width: ports are as wide as the contract (R48). -/
  | widerThanPort (nbits : Nat)
  deriving DecidableEq, Repr

/-- A bare word of `nbits` bits as a request. The width alone picks the unit, because no bit of a word does (R46): 32 bits
are the operand of an RSQRT (R40), and where several units share a width, the unit that the REF instance has is taken: DESIGN
CHOICE (log 6). A width that is no whole number of bytes is accepted as it is and rounded up. -/
def requestOfWord (nbits w : Nat) : Except WordError Request :=
  match nbits with
  | 5 => if w < 2 ^ 5 then .ok (.romrd (BitVec.ofNat 5 w)) else .error (.widerThanPort 5)
  | 8 => if w < 2 ^ 5 then .ok (.romrd (BitVec.ofNat 5 w)) else .error (.widerThanPort 5)
  | 32 => if w < 2 ^ 32 then .ok (.rsqrtRef (BitVec.ofNat 32 w)) else .error (.widerThanPort 32)
  | 37 => if w < 2 ^ 37 then .ok (.frac (BitVec.ofNat 37 w)) else .error (.widerThanPort 37)
  | 40 => if w < 2 ^ 37 then .ok (.frac (BitVec.ofNat 37 w)) else .error (.widerThanPort 37)
  | 64 => if w < 2 ^ 64 then .ok (.newtonRef (BitVec.ofNat 64 w)) else .error (.widerThanPort 64)
  | 69 => if w < 2 ^ 69 then .ok (.interpRef (BitVec.ofNat 69 w)) else .error (.widerThanPort 69)
  | 72 => if w < 2 ^ 69 then .ok (.interpRef (BitVec.ofNat 69 w)) else .error (.widerThanPort 69)
  | 96 => if w < 2 ^ 96 then .ok (.mulsa (BitVec.ofNat 96 w)) else .error (.widerThanPort 96)
  | n => .error (.noSuchWidth n)

/-- The instruction the decoder reads from an operation-table row's bare word (log 6). -/
def decodeTableWord (nbits w : Nat) : Option Instr :=
  match requestOfWord nbits w with
  | .ok r => some (decode Config.resetVariant r)
  | .error _ => none

end Sys2Proof
end

