-- ==== Sys2Proof/Machine/Flags.lean ====
section
/-! DEFINITION. The block has no status flags, condition codes or predicates (R14), so no operation writes one. What it has are data-dependent selections (R105); the conditions they test stand here. -/

namespace Sys2Proof.Machine

/-- The guard's test `x = 0` (R101, R105 a), made on the operand before anything else (R115). -/
def isZeroOperand (x : U32) : Bool := x == 0#32
/-- The clamp's test `exp = 31` (R73, R105 b). -/
def isLastBucket (exp : U5) : Bool := exp == 31#5
/-- FRAC's choice of shift direction, `exp >= 16` (R77, R105 c). -/
def fracShiftsRight (exp : U5) : Bool := decide (16 ≤ exp.toNat)

end Sys2Proof.Machine
end

