-- ==== Sys2Proof/Machine/State.lean ====
section
/-! DEFINITION. The state of one instance: R20's table row by row, the reset input of R125, and the model's own index of free values. -/

namespace Sys2Proof.Machine

/-- TABLE as (index, word) pairs in canonical form: indices strictly rising and below 32, and no pair equal to what an unlisted
index reads as, its word of R33 (`Memory.wf` in Machine/Ops.lean). The 16-bit word is the unit of addressing (R25); there is no
byte address and no byte order (R28), so the cells are words (log 2). -/
abbrev Memory := List (Nat × BitVec 16)

/-- MULSA's working registers (R17). -/
structure MulsaRegs where
  /-- `A`: the multiplicand, shifted left one place per iteration. -/
  a : BitVec 64
  /-- `B`: the multiplier, shifted right one place per iteration. -/
  b : BitVec 32
  /-- `ACC`: the 64-bit accumulator. -/
  acc : BitVec 64
  deriving DecidableEq, Repr

/-- MUL16's working registers (R17). -/
structure Mul16Regs where
  /-- `acc`: the sum of the shifted partial sums. -/
  acc : BitVec 32
  /-- `pp`: the first operand times one nibble value. -/
  pp : BitVec 20
  deriving DecidableEq, Repr

/-- One instance of the block (R20). Working values of R16 exist only inside one operation, and one step is one operation
(R131), so none is a field. -/
structure State where
  /-- `VARIANT` (R3, R7): fixed when the instance is built. -/
  variant : Variant
  /-- TABLE (R18, R25). -/
  table : Memory
  /-- The operand in flight, `X` (R12, R19): supplied with a request, held until its response. -/
  request : Option Request
  /-- The response that the last step delivered, `Y` for RSQRT (R12): none where no response is pending (R125 b). Outside a response
  `Y` has no value (U7). -/
  response : Option Response
  /-- The reset input: a reset event has arrived and the next step takes it (R125, R126). -/
  resetArrived : Bool
  /-- MULSA's registers (R17). -/
  mulsa : MulsaRegs
  /-- MUL16's registers (R17). -/
  mul16 : Mul16Regs
  /-- The step counter a sequential implementation may keep (R13): no rule reads it, and it has the same value at the start of
  every operation. -/
  stepCounter : Nat
  /-- The MODEL's own field: the index of the next free value. -/
  openCount : Nat
  deriving DecidableEq, Repr

/-- Why the machine stops with a fault: nothing does. "The block raises no exception, reports no error and has no error output"
(R110), so there is no constructor. -/
inductive Fault where
  deriving DecidableEq, Repr

/-- Why a step has no meaning. -/
inductive Refusal where
  /-- Raised by `exec` for an instruction with no meaning in this model. Safe: the model stops where the block goes on. No
  arm of `exec` raises it. -/
  | notModelled (mnemonic : String)
  deriving DecidableEq, Repr

/-- An instance of variant `v` with table `m`, right after reset (R20, R125): idle, no response pending. The registers and the step
counter are unspecified in R20 and nothing reads them; zero here is a DESIGN CHOICE (log 12, log 13, log 14). -/
def State.resetOf (v : Variant) (m : Memory) : State :=
  { variant := v
    table := m
    request := none
    response := none
    resetArrived := false
    mulsa := { a := 0#64, b := 0#32, acc := 0#64 }
    mul16 := { acc := 0#32, pp := 0#20 }
    stepCounter := 0
    openCount := 0 }

/-- The machine right after reset, with the table of R33 (nothing listed). The variant is `Config.resetVariant` (log 1). -/
def State.reset : State := State.resetOf Config.resetVariant []

end Sys2Proof.Machine
end

