-- ==== Sys2Proof/Machine/Ops.lean ====
section
/-! DEFINITION. The named operations over TABLE and over the state: reading a word, the integrator's loading of one, taking a request, delivering a response, the registers after an operation, and reset. The block takes no exception and returns from none (R110, R116, R117), so there is no operation for either. -/

namespace Sys2Proof.Machine

/-- The 32 words of TABLE, index 0 first (R33). Entry 0 is saturated to 65535 (C1, D3; log 3). -/
def tableWords : List U16 :=
  [65535#16, 46341#16, 32768#16, 23170#16, 16384#16, 11585#16, 8192#16, 5793#16,
   4096#16, 2896#16, 2048#16, 1448#16, 1024#16, 724#16, 512#16, 362#16] ++
  [256#16, 181#16, 128#16, 91#16, 64#16, 45#16, 32#16, 23#16,
   16#16, 11#16, 8#16, 6#16, 4#16, 3#16, 2#16, 1#16]

/-- What an unlisted index reads as: its word of R33. No index above 31 exists (R32), and none can be formed (R31). -/
def tableWord (i : Nat) : U16 := tableWords.getD i 0#16

/-- The word listed for `i`, or the word an unlisted index reads as. -/
def Memory.lookup : Memory → Nat → U16
  | [], i => tableWord i
  | (k, w) :: rest, i => if k = i then w else Memory.lookup rest i

/-- `RomRead(i)` (R30): the index is 5 bits, so index 32 cannot be formed (R31). -/
def Memory.read (m : Memory) (i : U5) : U16 := Memory.lookup m i.toNat

/-- Canonical form from index `lo` upward. -/
def Memory.wfFrom : Nat → Memory → Bool
  | _, [] => true
  | lo, (k, w) :: rest =>
    decide (lo ≤ k) && decide (k < 32) && (w != tableWord k) && Memory.wfFrom (k + 1) rest

/-- The canonical form: indices strictly rising and below 32, no entry equal to what an unlisted index reads as. -/
def Memory.wf (m : Memory) : Bool := Memory.wfFrom 0 m

/-- `m` with the word at `i` set, in canonical form. -/
def Memory.insert : Memory → Nat → U16 → Memory
  | [], i, w => if w = tableWord i then [] else [(i, w)]
  | (k, v) :: rest, i, w =>
    if i < k then (if w = tableWord i then (k, v) :: rest else (i, w) :: (k, v) :: rest)
    else if i = k then (if w = tableWord i then rest else (i, w) :: rest)
    else (k, v) :: Memory.insert rest i w

/-- The integrator's loading of one table word before the first request (R127), which makes TABLE a parameter of the model
(R7, U9). No operation of the block writes a word (R18, R26). -/
def Memory.write (m : Memory) (i : U5) (w : U16) : Memory := Memory.insert m i.toNat w

/-- The requester presents a request (R109). At most one may be outstanding (R136): this is meant for a state with none, and
what a second one does is outside the model (U6; log 17). -/
def State.present (s : State) (r : Request) : State := { s with request := some r, response := none }

/-- The operation the request in flight asks for, none where the block is idle. -/
def State.fetch (s : State) : Option Instr := s.request.map (decode s.variant)

/-- Deliver the response and take the request as answered: exactly one response per request (R109). -/
def State.answer (s : State) (r : Response) : State := { s with request := none, response := some r }

/-- Advance to the next free value. -/
def State.spendOpen (s : State) : State := { s with openCount := s.openCount + 1 }

/-- After an operation that may have used MULSA: its registers hold any value (U8; log 13). -/
def State.spendMulsa (s : State) : State :=
  { s with
    mulsa := { a := Config.openMulsaA s.openCount, b := Config.openMulsaB s.openCount,
               acc := Config.openMulsaAcc s.openCount }
    openCount := s.openCount + 1 }

/-- After an operation that may have used MUL16: its registers hold any value (U8; log 13). -/
def State.spendMul16 (s : State) : State :=
  { s with
    mul16 := { acc := Config.openMul16Acc s.openCount, pp := Config.openMul16Pp s.openCount }
    openCount := s.openCount + 1 }

/-- A step with no request: the block never answers a request that was not made (R109), and `Y` has no value between responses
(U7). -/
def State.idle (s : State) : State := { s with response := none }

/-- A reset event (R125, R126): the block is idle, an operation in flight is abandoned without a response, TABLE and VARIANT are
unaffected, and the registers and the step counter are unspecified. -/
def State.blockReset (s : State) : State :=
  { s with
    request := none
    response := none
    resetArrived := false
    mulsa := { a := Config.openMulsaA s.openCount, b := Config.openMulsaB s.openCount,
               acc := Config.openMulsaAcc s.openCount }
    mul16 := { acc := Config.openMul16Acc s.openCount, pp := Config.openMul16Pp s.openCount }
    stepCounter := Config.openStepCounter s.openCount
    openCount := s.openCount + 1 }

end Sys2Proof.Machine
end

