-- ==== Sys2Proof/Machine/Multiply.lean ====
section
/-! DEFINITION. The multipliers (R60 to R69): MULSA, MUL16 and the composed product XY2.OPT, their contracts, the structures of R62 and R66, and their meanings. -/

namespace Sys2Proof.Machine

/-- `MULSA(a, b) = (a * b) mod 2^64` (R61). -/
def mulsa (a : U64) (b : U32) : U64 := a * b.setWidth 64

/-- The start of a multiplication: every register is loaded, whatever it held (R17, R62). -/
def mulsaLoad (_old : MulsaRegs) (a : U64) (b : U32) : MulsaRegs := { a := a, b := b, acc := 0#64 }

/-- One iteration of R62. -/
def mulsaIteration (r : MulsaRegs) : MulsaRegs :=
  { a := r.a <<< 1
    b := r.b >>> 1
    acc := if r.b.getLsbD 0 then r.acc + r.a else r.acc }

/-- `n` iterations of R62. -/
def mulsaIterate : Nat → MulsaRegs → MulsaRegs
  | 0, r => r
  | n + 1, r => mulsaIterate n (mulsaIteration r)

/-- The shift-add loop of R62: 32 iterations, from any earlier register contents. -/
def mulsaByLoop (old : MulsaRegs) (a : U64) (b : U32) : U64 :=
  (mulsaIterate 32 (mulsaLoad old a b)).acc

/-- At most `n` iterations of R62, stopping as soon as `B = 0`, as R63 allows. -/
def mulsaIterateEarly : Nat → MulsaRegs → MulsaRegs
  | 0, r => r
  | n + 1, r => if r.b = 0#32 then r else mulsaIterateEarly n (mulsaIteration r)

/-- The shift-add loop with the early exits of R63. -/
def mulsaByLoopEarly (old : MulsaRegs) (a : U64) (b : U32) : U64 :=
  (mulsaIterateEarly 32 (mulsaLoad old a b)).acc

/-- `MUL16(a, b) = a * b` (R65), exact in 32 bits. -/
def mul16 (a b : U16) : U32 := a.setWidth 32 * b.setWidth 32

/-- `pp` of R66: the first operand times one nibble value, by at most four shifted adds. -/
def nibbleProduct (a : U16) (n : BitVec 4) : U20 :=
  (if n.getLsbD 0 then a.setWidth 20 else 0#20)
    + (if n.getLsbD 1 then a.setWidth 20 <<< 1 else 0#20)
    + (if n.getLsbD 2 then a.setWidth 20 <<< 2 else 0#20)
    + (if n.getLsbD 3 then a.setWidth 20 <<< 3 else 0#20)

/-- Step `k` of R66: the partial product of nibble `k`, added at its place. -/
def mul16Nibble (a b : U16) (r : Mul16Regs) (k : Nat) : Mul16Regs :=
  let pp := nibbleProduct a (nibble b k)
  { acc := r.acc + (pp.setWidth 32 <<< (4 * k)), pp := pp }

/-- The nibble structure of R66, from any earlier register contents: `acc` is loaded with 0 and `pp` before it is read. -/
def mul16ByNibbles (old : Mul16Regs) (a b : U16) : U32 :=
  ([0, 1, 2, 3].foldl (mul16Nibble a b) { old with acc := 0#32 }).acc

/-- `XY2.OPT(x, sq)` (R68): four MUL16 products at the places of their halves, `ll` cut before the sum. -/
def xy2Opt (x sq : U32) : U32 :=
  let hh := mul16 (upperHalf x) (upperHalf sq)
  let hl := mul16 (upperHalf x) (lowerHalf sq)
  let lh := mul16 (lowerHalf x) (upperHalf sq)
  let ll := mul16 (lowerHalf x) (lowerHalf sq)
  (hh <<< 16) + hl + lh + (ll >>> 16)

/-- `MULSA a, b` (R61). -/
def execMulsa (a : U64) (b : U32) (s : State) : Host.Outcome State Fault Refusal :=
  .next (s.answer (.prod64 (mulsa a b))).spendMulsa

/-- `MUL16 a, b` (R65). -/
def execMul16 (a b : U16) (s : State) : Host.Outcome State Fault Refusal :=
  .next (s.answer (.prod32 (mul16 a b))).spendMul16

/-- `XY2.OPT x, sq` (R68). -/
def execXy2Opt (x sq : U32) (s : State) : Host.Outcome State Fault Refusal :=
  .next (s.answer (.xy2 (xy2Opt x sq))).spendMul16

end Sys2Proof.Machine
end

