-- ==== Sys2Proof/Machine/Interp.lean ====
section
/-! DEFINITION. INTERP, the table interpolator (R77 to R83): its steps, the seed on plain integers, and the meanings of FRAC, INTERP.REF and INTERP.OPT. -/

namespace Sys2Proof.Machine

/-- `r = x - 2^exp` (R77): `x` with its top set bit cleared, for `x` in the bucket `exp`. -/
def bucketOffset (x : U32) (exp : U5) : BitVec 31 := (x - (1#32 <<< exp.toNat)).setWidth 31

/-- `FRAC(x, exp)` (R77). Outside the bucket the rule's value is no 16-bit value and none is stated: the `k`-th free value (log 9). -/
def frac (k : Nat) (x : U32) (exp : U5) : U16 :=
  if inBucket x exp then
    if fracShiftsRight exp then (bucketOffset x exp >>> fracRightShift exp).setWidth 16
    else (bucketOffset x exp <<< fracLeftShift exp).setWidth 16
  else Config.openFrac k

/-- `delta = y_base - y_next` (R78). The rule has no wrap; where it would borrow, the `k`-th free value (log 10). -/
def tableDrop (k : Nat) (yBase yNext : U16) : U16 :=
  if yNext.toNat ≤ yBase.toNat then yBase - yNext else Config.openDelta k

/-- `prod` of the reference variant (R79): `MULSA(zext_64(delta), zext_32(frac))[31:0]`. -/
def interpProductRef (delta f : U16) : U32 := (mulsa (delta.setWidth 64) (f.setWidth 32)).setWidth 32

/-- `prod` of the optimal variant (R79): `MUL16(delta, frac)`. -/
def interpProductOpt (delta f : U16) : U32 := mul16 delta f

/-- `y0 = y_base - (prod >> 16)` (R80): a truncating shift. Where it would borrow, the `k`-th free value (log 10). -/
def seedOf (k : Nat) (yBase : U16) (prod : U32) : U16 :=
  if (upperHalf prod).toNat ≤ yBase.toNat then yBase - upperHalf prod else Config.openSeed k

/-- `INTERP.REF(x, exp, y_base, y_next)` (R82). -/
def interpRef (k : Nat) (x : U32) (exp : U5) (yBase yNext : U16) : U16 :=
  seedOf k yBase (interpProductRef (tableDrop k yBase yNext) (frac k x exp))

/-- `INTERP.OPT(x, exp, y_base, y_next)` (R82). -/
def interpOpt (k : Nat) (x : U32) (exp : U5) (yBase yNext : U16) : U16 :=
  seedOf k yBase (interpProductOpt (tableDrop k yBase yNext) (frac k x exp))

/-- The seed on plain integers, for `x` in the bucket `e` between table words `base` and `next` (R77 to R80 with exact arithmetic). -/
def seedNat (x e base next : Nat) : Nat := base - (base - next) * ((x - 2 ^ e) * 2 ^ 16 / 2 ^ e) / 2 ^ 16

/-- `FRAC x, exp` (R77). -/
def execFrac (x : U32) (exp : U5) (s : State) : Host.Outcome State Fault Refusal :=
  .next (s.answer (.frac (frac s.openCount x exp))).spendOpen

/-- `INTERP.REF x, exp, y_base, y_next` (R82). -/
def execInterpRef (x : U32) (exp : U5) (yBase yNext : U16) (s : State) : Host.Outcome State Fault Refusal :=
  .next (s.answer (.seed (interpRef s.openCount x exp yBase yNext))).spendMulsa

/-- `INTERP.OPT x, exp, y_base, y_next` (R82). -/
def execInterpOpt (x : U32) (exp : U5) (yBase yNext : U16) (s : State) : Host.Outcome State Fault Refusal :=
  .next (s.answer (.seed (interpOpt s.openCount x exp yBase yNext))).spendMul16

end Sys2Proof.Machine
end

