-- ==== Sys2Proof/Machine/Newton.lean ====
section
/-! DEFINITION. NEWTON, the Newton-Raphson refiner (R84 to R95): the value function on integers, the two realisations, and their meanings. -/

namespace Sys2Proof.Machine

/-- `NSTEPS` (R7, R91): not independently settable. -/
def nsteps : Variant → Nat
  | .ref => 2
  | .opt => 1

/-- The value function NEWTON on integers, line by line as R85 writes it: `sq`, `p`, `xy2`, `term`, `rr`, `s`, `y'`. -/
def newtonNat (x y : Nat) : Nat :=
  let sq := y * y
  let p := sq * x % 2 ^ 64
  let xy2 := p / 2 ^ 16 % 2 ^ 32
  let term := (0x30000 + 2 ^ 32 - xy2) % 2 ^ 32
  let rr := y * term
  let s := (rr + 0x10000) % 2 ^ 64
  s / 2 ^ 17 % 2 ^ 32

/-- `xy2` of R86: the square and the product with `x` made by MULSA, the 64-bit square at the multiplicand port (C7, D6). -/
def xy2Ref (x y : U32) : U32 := bits47to16 (mulsa (mulsa (y.setWidth 64) y) x)

/-- `term = (0x00030000 - xy2) mod 2^32` (R85): no clamp and no overflow guard (R89). -/
def termOf (xy2 : U32) : U32 := threeQ16 - xy2

/-- The last two lines of R86: the one rounding of a step, `2^16` before the shift right by 17 (R88). -/
def roundRef (y term : U32) : U32 := bits48to17 (mulsa (y.setWidth 64) term + half17)

/-- `NEWTON.REF(x, y)` (R86). -/
def newtonRef (x y : U32) : U32 := roundRef y (termOf (xy2Ref x y))

/-- `yi` of R87: `y * ti` by at most two shifted adds. -/
def yTimesInt (y16 : U16) (ti : BitVec 2) : BitVec 18 :=
  (if ti.getLsbD 0 then y16.setWidth 18 else 0#18) + (if ti.getLsbD 1 then y16.setWidth 18 <<< 1 else 0#18)

/-- The last lines of R87: `term` split into integer part and fraction, recombined with the rounding constant after the shift by 16. -/
def roundOpt (y16 : U16) (term : U32) : U32 :=
  ((yTimesInt y16 (termInt term)).setWidth 32 + oneAfter16 + (mul16 y16 (lowerHalf term) >>> 16)) >>> 1

/-- `NEWTON.OPT(x, y)` (R87). Bits 31:16 of `y` and bits 31:18 of `term` are not used (R45, D11). -/
def newtonOpt (x y : U32) : U32 :=
  let y16 := lowerHalf y
  roundOpt y16 (termOf (xy2Opt x (mul16 y16 y16)))

/-- `NEWTON.REF x, y` (R86). -/
def execNewtonRef (x y : U32) (s : State) : Host.Outcome State Fault Refusal :=
  .next (s.answer (.estimate (newtonRef x y))).spendMulsa

/-- `NEWTON.OPT x, y` (R87). -/
def execNewtonOpt (x y : U32) (s : State) : Host.Outcome State Fault Refusal :=
  .next (s.answer (.estimate (newtonOpt x y))).spendMul16

end Sys2Proof.Machine
end

