-- ==== Sys2Proof/Machine/Clz.lean ====
section
/-! DEFINITION. CLZ32, the leading-zero counter (R55 to R59): its contract, the halving structure of R57, and its meaning. -/

namespace Sys2Proof.Machine

/-- The largest index below `n` at which `v` has a 1. -/
def highestBit (v : U32) : Nat → Option Nat
  | 0 => none
  | k + 1 => if v.getLsbD k then some k else highestBit v k

/-- `CLZ32(v)` (R56): 32 for zero, else `31 - k` for the largest `k` with `v[k] = 1`. -/
def clz32 (v : U32) : U6 :=
  match highestBit v 32 with
  | none => 32#6
  | some k => BitVec.ofNat 6 (31 - k)

/-- One test of R57 with chunk size `c`, on the pair of count `n` and remaining field `w`. -/
def clzTest (nw : U6 × U32) (c : Nat) : U6 × U32 :=
  let t := nw.2 >>> c
  if t = 0#32 then nw else (nw.1 - BitVec.ofNat 6 c, t)

/-- The chunk sizes of R43 and R57, in the order of the tests. -/
def clzChunks : List Nat := [16, 8, 4, 2, 1]

/-- The halving structure of R57. R56 is normative and the structure is not observable (U13; log 19). -/
def clz32ByHalving (v : U32) : U6 :=
  let nw := clzChunks.foldl clzTest (32#6, v)
  nw.1 - nw.2.setWidth 6

/-- `CLZ32 v` (R56). -/
def execClz32 (v : U32) (s : State) : Host.Outcome State Fault Refusal :=
  .next (s.answer (.count (clz32 v)))

end Sys2Proof.Machine
end

