-- ==== Sys2Proof/Machine/TableRange.lean ====
section
/-! DEFINITION. RANGE and the table read (R30, R70 to R76), and their meanings. -/

namespace Sys2Proof.Machine

/-- RANGE's result tuple (R71). -/
structure Bucket where
  /-- `exp`: the index of the highest set bit. -/
  exp : U5
  /-- `y_base`. -/
  yBase : U16
  /-- `y_next`. -/
  yNext : U16
  deriving DecidableEq, Repr

/-- `exp = 31 - CLZ32(x)` (R71), for `x ≠ 0`. -/
def bucketIndex (x : U32) : U5 := (31#6 - clz32 x).setWidth 5

/-- `y_next` (R73): the next table word, or the constant 1 in the last bucket, where no index 32 is formed. -/
def nextWord (m : Memory) (exp : U5) : U16 :=
  if isLastBucket exp then clampNext else m.read (exp + 1#5)

/-- `RANGE(x)` (R71). For `x = 0` no result has a value (R75, U1): each is a free value, the `k`-th (log 8). -/
def range (k : Nat) (m : Memory) (x : U32) : Bucket :=
  if isZeroOperand x then
    { exp := Config.openExp k, yBase := Config.openBase k, yNext := Config.openNext k }
  else
    { exp := bucketIndex x, yBase := m.read (bucketIndex x), yNext := nextWord m (bucketIndex x) }

/-- `ROMRD i` (R30). -/
def execRomrd (i : U5) (s : State) : Host.Outcome State Fault Refusal :=
  .next (s.answer (.word (s.table.read i)))

/-- `RANGE x` (R71). -/
def execRange (x : U32) (s : State) : Host.Outcome State Fault Refusal :=
  let b := range s.openCount s.table x
  .next (s.answer (.bucket b.exp b.yBase b.yNext)).spendOpen

end Sys2Proof.Machine
end

