-- ==== Sys2Proof/Machine/Rsqrt.lean ====
section
/-! DEFINITION. RSQRT, the block's operation (R100 to R109): the guard, the two schedules and their meanings. -/

namespace Sys2Proof.Machine

/-- The seed `y0` of the reference schedule (R102): RANGE, then INTERP.REF. -/
def seedRef (k : Nat) (m : Memory) (x : U32) : U16 :=
  let b := range k m x
  interpRef k x b.exp b.yBase b.yNext

/-- The seed `y0` of the optimal schedule (R103): RANGE, then INTERP.OPT. -/
def seedOpt (k : Nat) (m : Memory) (x : U32) : U16 :=
  let b := range k m x
  interpOpt k x b.exp b.yBase b.yNext

/-- `RSQRT.REF(x)`: the guard (R101), else the schedule of R102 with two Newton steps. -/
def rsqrtRef (k : Nat) (m : Memory) (x : U32) : U32 :=
  if isZeroOperand x then 0#32
  else
    let y1 := newtonRef x ((seedRef k m x).setWidth 32)
    newtonRef x y1

/-- `RSQRT.OPT(x)`: the guard (R101), else the schedule of R103 with one Newton step. -/
def rsqrtOpt (k : Nat) (m : Memory) (x : U32) : U32 :=
  if isZeroOperand x then 0#32
  else newtonOpt x ((seedOpt k m x).setWidth 32)

/-- `RSQRT(x)` (R100): the variant's operation. -/
def rsqrt (v : Variant) (k : Nat) (m : Memory) (x : U32) : U32 :=
  match v with
  | .ref => rsqrtRef k m x
  | .opt => rsqrtOpt k m x

/-- `RSQRT.REF x` (R101, R102). -/
def execRsqrtRef (x : U32) (s : State) : Host.Outcome State Fault Refusal :=
  .next (s.answer (.y (rsqrtRef s.openCount s.table x))).spendMulsa

/-- `RSQRT.OPT x` (R101, R103). -/
def execRsqrtOpt (x : U32) (s : State) : Host.Outcome State Fault Refusal :=
  .next (s.answer (.y (rsqrtOpt s.openCount s.table x))).spendMul16

end Sys2Proof.Machine
end

