-- ==== Sys2Proof/Machine/Dispatch.lean ====
section
/-! DEFINITION. exec: one arm per operation of R46, each one call of its meaning. -/

namespace Sys2Proof.Machine

def exec (i : Instr) (s : State) : Host.Outcome State Fault Refusal :=
  match i with
  | .rsqrtRef x => Sys2Proof.Machine.execRsqrtRef x s
  | .rsqrtOpt x => Sys2Proof.Machine.execRsqrtOpt x s
  | .clz32 v => Sys2Proof.Machine.execClz32 v s
  | .mulsa a b => Sys2Proof.Machine.execMulsa a b s
  | .mul16 a b => Sys2Proof.Machine.execMul16 a b s
  | .xy2Opt x sq => Sys2Proof.Machine.execXy2Opt x sq s
  | .romrd j => Sys2Proof.Machine.execRomrd j s
  | .range x => Sys2Proof.Machine.execRange x s
  | .frac x e => Sys2Proof.Machine.execFrac x e s
  | .interpRef x e yb yn => Sys2Proof.Machine.execInterpRef x e yb yn s
  | .interpOpt x e yb yn => Sys2Proof.Machine.execInterpOpt x e yb yn s
  | .newtonRef x y => Sys2Proof.Machine.execNewtonRef x y s
  | .newtonOpt x y => Sys2Proof.Machine.execNewtonOpt x y s

end Sys2Proof.Machine
end

