-- ==== Sys2Proof/Machine/Step.lean ====
section
/-! DEFINITION. One step: a reset event, or a request taken to its response (R131: "one step takes a request to its response"), or nothing. -/

namespace Sys2Proof.Machine

/-- One step. A reset event comes first and abandons a request in flight (R126). Otherwise the request is decoded and executed; with
no request the block stays idle and answers nothing (R109). -/
def step (s : State) : Host.Outcome State Fault Refusal :=
  if s.resetArrived then .next s.blockReset
  else
    match s.fetch with
    | none => .next s.idle
    | some i => exec i s

/-- `s` with the bare word of an operation-table row presented as the request the next step answers, and no reset event waiting
(log 7). A word that is no request leaves the request as it was. -/
def State.withFetchWord (s : State) (nbits w : Nat) : State :=
  match requestOfWord nbits w with
  | .ok r => { s with request := some r, resetArrived := false }
  | .error _ => s

end Sys2Proof.Machine
end

