-- ==== Sys2Proof/Safety.lean ====
section
/-! DEFINITION. The terms claims use: what an operation leaves unchanged, the invariant, the table's validity, sequences of requests, and the exact arithmetic of R85's last sentence. -/

namespace Sys2Proof.Machine

/-- The response of an outcome, if it is a next state with one. -/
def responseOf : Host.Outcome State Fault Refusal → Option Response
  | .next t => t.response
  | .fault _ => none
  | .refused _ => none

/-- What no operation changes: VARIANT, TABLE and every word read from it (R11, R18, R20, R30). -/
def KeepsBlock (s t : State) : Prop :=
  t.variant = s.variant ∧ t.table = s.table ∧ (∀ i : U5, t.table.read i = s.table.read i)

/-- The operations that may use MULSA (R64, R102). -/
def usesMulsa : Instr → Bool
  | .rsqrtRef _ => true
  | .rsqrtOpt _ => false
  | .clz32 _ => false
  | .mulsa _ _ => true
  | .mul16 _ _ => false
  | .xy2Opt _ _ => false
  | .romrd _ => false
  | .range _ => false
  | .frac _ _ => false
  | .interpRef _ _ _ _ => true
  | .interpOpt _ _ _ _ => false
  | .newtonRef _ _ => true
  | .newtonOpt _ _ => false

/-- The operations that may use MUL16 (R69, R103). -/
def usesMul16 : Instr → Bool
  | .rsqrtRef _ => false
  | .rsqrtOpt _ => true
  | .clz32 _ => false
  | .mulsa _ _ => false
  | .mul16 _ _ => true
  | .xy2Opt _ _ => true
  | .romrd _ => false
  | .range _ => false
  | .frac _ _ => false
  | .interpRef _ _ _ _ => false
  | .interpOpt _ _ _ _ => true
  | .newtonRef _ _ => false
  | .newtonOpt _ _ => true

/-- TABLE holds the words of R33, as R127 asks before the first request. -/
def HoldsTable (m : Memory) : Prop := ∀ i : U5, m.read i = tableWord i.toNat

/-- What every reachable state satisfies: TABLE is canonical and valid (R127), a Y response lies in 0..65536 (R12), a count in
0..32 (R56), and a table word is at least 1 (R34 b). -/
def Inv (s : State) : Prop :=
  s.table.wf = true ∧ HoldsTable s.table ∧
    (∀ v, s.response = some (.y v) → v.toNat ≤ 65536) ∧
    (∀ n, s.response = some (.count n) → n.toNat ≤ 32) ∧
    (∀ w, s.response = some (.word w) → 1 ≤ w.toNat)

/-- The responses to a sequence of requests presented one at a time, each after the response to the one before (R109, R136). -/
def serve : State → List Request → List (Option Response)
  | _, [] => []
  | s, r :: rs =>
    match step (s.present r) with
    | .next t => t.response :: serve t rs
    | .fault _ => []
    | .refused _ => []

/-- One Newton step in exact arithmetic: `floor((y * (196608 - floor(x * y^2 / 65536)) + 65536) / 131072)` (R85). -/
def closedStep (x y : Nat) : Nat := (y * (196608 - x * y ^ 2 / 65536) + 65536) / 131072

/-- `y_next` as a number: the word of R33 after `e`, or 1 in the last bucket (R73). -/
def nextNat (e : Nat) : Nat := if e < 31 then (tableWord (e + 1)).toNat else 1

/-- The seed of the bucket `e` with the table of R33. -/
def tableSeed (x e : Nat) : Nat := seedNat x e (tableWord e).toNat (nextNat e)

end Sys2Proof.Machine
end

