-- ==== Sys2Proof/Certificates/Slice0/Obligations.lean ====
section
/-! DEFINITION. The statements for the provers. -/

open Sys2Proof Sys2Proof.Machine

/-! The step, the ports and the encodings. -/

/-- With no reset event waiting, a step is `exec` of the decoded request (R131), nothing added; with no request it delivers no
response (R109) and leaves VARIANT and TABLE. Model's choices: that an idle step takes the shown response away (log 11), that
reset is an input bit (log 16), and the unit a bare word of `withFetchWord` reaches (log 6, log 7). -/
def Obligations.StepRunsDecodedRequest : Prop :=
  (∀ (s : State) (r : Request), s.resetArrived = false → s.request = some r →
      step s = exec (decode s.variant r) s) ∧
  (∀ s : State, s.resetArrived = false → s.request = none →
      ∃ t : State, step s = .next t ∧ t.request = none ∧ t.response = none ∧ KeepsBlock s t) ∧
  (∀ (s : State) (nbits w : Nat) (i : Instr), decodeTableWord nbits w = some i →
      step (s.withFetchWord nbits w) = exec i (s.withFetchWord nbits w))

/-- Decode and encode agree in both directions, over every operation, every operand value and every request word (R42). The block's
own port is the exception of the second half: its request is encoded at the port of the operation it stands for (R50). -/
def Obligations.DecodeEncodeAgree : Prop :=
  (∀ (v : Variant) (i : Instr), decode v (encode i) = i) ∧
  (∀ (v : Variant) (r : Request), (∀ w, r ≠ .rsqrt w) → encode (decode v r) = r)

/-- Request words written out in 95_test_vectors.md section 8 decode to the operations they stand for. -/
def Obligations.SampleRequestWordsDecode : Prop :=
  ∀ v : Variant,
    decode .ref (.rsqrt 0x000003E8#32) = .rsqrtRef 1000#32 ∧
    decode .opt (.rsqrt 0x00000003#32) = .rsqrtOpt 3#32 ∧
    decode v (.mulsa 0x00000000000003500000F400#96) = .mulsa 848#64 62464#32 ∧
    decode v (.mul16 0x35058000#32) = .mul16 13573#16 32768#16 ∧
    decode v (.xy2Opt 0x000003E800428640#64) = .xy2Opt 1000#32 4359744#32 ∧
    decode v (.frac 0x0000007D09#37) = .frac 1000#32 9#5 ∧
    decode v (.newtonRef 0x0000000300009357#64) = .newtonRef 3#32 37719#32 ∧
    decode v (.newtonOpt 0x0000006400001ABB#64) = .newtonOpt 100#32 6843#32 ∧
    decode v (.romrd 0x13#5) = .romrd 19#5

/-- No step is a fault or a refusal, whatever the state and the request (R110). -/
def Obligations.EveryStepAnswers : Prop := ∀ s : State, ∃ t : State, step s = .next t

/-- The block's request `x` is answered with RSQRT(x) of the instance's variant (R100): the operation's own response, and 0 for
`x = 0` in both variants (R101). -/
def Obligations.BlockRequestAnswersRsqrt : Prop :=
  ∀ (s : State) (x : U32), s.resetArrived = false → s.request = some (.rsqrt x) →
    ∃ (t : State) (y : U32), step s = .next t ∧ t.request = none ∧ t.response = some (.y y) ∧
      KeepsBlock s t ∧
      (x = 0#32 → y = 0#32) ∧
      (s.variant = .ref → exec (.rsqrtRef x) s = .next t) ∧
      (s.variant = .opt → exec (.rsqrtOpt x) s = .next t)

/-! Reset. -/

/-- Right after reset an instance of either variant is idle with no response pending, and TABLE holds the words of R33 in canonical
form (R20, R125 a and b). -/
def Obligations.ResetLeavesBlockIdle : Prop :=
  (∀ v : Variant, (State.resetOf v []).request = none ∧ (State.resetOf v []).response = none ∧
      (State.resetOf v []).resetArrived = false ∧ (State.resetOf v []).variant = v ∧
      (State.resetOf v []).table.wf = true ∧ HoldsTable (State.resetOf v []).table) ∧
  (∃ v : Variant, State.reset = State.resetOf v [])

/-- A reset event abandons the operation in flight: no response is delivered for it (R126), the block is idle, TABLE and VARIANT are
unaffected (R125 a and b), and a request issued afterwards is answered like any other (R128). Model's choice: the event is an input
bit which one step takes first and clears (log 16). -/
def Obligations.ResetEventAbandonsOperation : Prop :=
  ∀ s : State, s.resetArrived = true →
    ∃ t : State, step s = .next t ∧ t.request = none ∧ t.response = none ∧ t.resetArrived = false ∧
      t.variant = s.variant ∧ t.table = s.table ∧ (∀ i : U5, t.table.read i = s.table.read i) ∧
      ∀ r : Request, step (t.present r) = exec (decode s.variant r) (t.present r)

/-! The units, one by one: each completes for every operand tuple and every state, with the result its rule gives. -/

/-- CLZ32 (R56). -/
def Obligations.ClzCountsLeadingZeros : Prop :=
  ∀ (v : U32) (s : State), ∃ (t : State) (n : U6),
    exec (.clz32 v) s = .next t ∧ t.request = none ∧ t.response = some (.count n) ∧
    KeepsBlock s t ∧ (∀ q : Variant, decode q (.clz32 v) = .clz32 v) ∧
    (v = 0#32 → n.toNat = 32) ∧
    (v ≠ 0#32 → n.toNat ≤ 31 ∧ v.getLsbD (31 - n.toNat) = true ∧
      (∀ j : Nat, 31 - n.toNat < j → v.getLsbD j = false) ∧
      2 ^ (31 - n.toNat) ≤ v.toNat ∧ v.toNat < 2 ^ (32 - n.toNat))

/-- MULSA (R61), on an instance that contains it (R60). -/
def Obligations.MulsaAnswersProduct : Prop :=
  ∀ (a : U64) (b : U32) (s : State), s.variant = .ref → ∃ (t : State) (p : U64),
    exec (.mulsa a b) s = .next t ∧ t.request = none ∧ t.response = some (.prod64 p) ∧
    KeepsBlock s t ∧ (∀ q : Variant, decode q (.mulsa (a ++ b)) = .mulsa a b) ∧
    p.toNat = a.toNat * b.toNat % 2 ^ 64 ∧ (a.toNat < 2 ^ 32 → p.toNat = a.toNat * b.toNat)

/-- MUL16 (R65), on an instance that contains it (R60). -/
def Obligations.MulSixteenAnswersExactProduct : Prop :=
  ∀ (a b : U16) (s : State), s.variant = .opt → ∃ (t : State) (p : U32),
    exec (.mul16 a b) s = .next t ∧ t.request = none ∧ t.response = some (.prod32 p) ∧
    KeepsBlock s t ∧ (∀ q : Variant, decode q (.mul16 (a ++ b)) = .mul16 a b) ∧
    p.toNat = a.toNat * b.toNat

/-- XY2.OPT (R68), on an OPT instance: the four partial products give bits 47:16 of the product. -/
def Obligations.XyTwoAnswersShiftedProduct : Prop :=
  ∀ (x sq : U32) (s : State), s.variant = .opt → ∃ (t : State) (v : U32),
    exec (.xy2Opt x sq) s = .next t ∧ t.request = none ∧ t.response = some (.xy2 v) ∧
    KeepsBlock s t ∧ (∀ q : Variant, decode q (.xy2Opt (x ++ sq)) = .xy2Opt x sq) ∧
    v.toNat = x.toNat * sq.toNat / 2 ^ 16 % 2 ^ 32

/-- ROMRD (R30), and for the table of R33 the rounding property that fixes each of its words. -/
def Obligations.RomReadAnswersTableWord : Prop :=
  ∀ (i : U5) (s : State), ∃ (t : State) (w : U16),
    exec (.romrd i) s = .next t ∧ t.request = none ∧ t.response = some (.word w) ∧
    KeepsBlock s t ∧
    (∀ q : Variant, decode q (.romrd i) = .romrd i) ∧
    w = s.table.read i ∧
    (HoldsTable s.table →
      (i = 0#5 → w.toNat = 65535) ∧
      (i ≠ 0#5 → (2 * w.toNat - 1) ^ 2 ≤ 2 ^ (34 - i.toNat) ∧ 2 ^ (34 - i.toNat) < (2 * w.toNat + 1) ^ 2))

/-- RANGE (R71), for every non-zero operand and every table. -/
def Obligations.RangeLocatesBucket : Prop :=
  ∀ (x : U32) (s : State), x ≠ 0#32 → ∃ (t : State) (e : U5) (base next : U16),
    exec (.range x) s = .next t ∧ t.request = none ∧ t.response = some (.bucket e base next) ∧
    KeepsBlock s t ∧ (∀ q : Variant, decode q (.range x) = .range x) ∧
    e.toNat + (clz32 x).toNat = 31 ∧
    2 ^ e.toNat ≤ x.toNat ∧ x.toNat < 2 ^ (e.toNat + 1) ∧ base = s.table.read e ∧
    (e.toNat < 31 → ∀ j : U5, j.toNat = e.toNat + 1 → next = s.table.read j) ∧
    (e.toNat = 31 → next.toNat = 1)

/-- FRAC (R77), for every operand in its bucket, with both shift directions. -/
def Obligations.FracPlacesOperandInBucket : Prop :=
  ∀ (x : U32) (e : U5) (s : State), 2 ^ e.toNat ≤ x.toNat → x.toNat < 2 ^ (e.toNat + 1) → ∃ (t : State) (f : U16),
    exec (.frac x e) s = .next t ∧ t.request = none ∧ t.response = some (.frac f) ∧
    KeepsBlock s t ∧ (∀ q : Variant, decode q (.frac (x ++ e)) = .frac x e) ∧
    f.toNat = (x.toNat - 2 ^ e.toNat) * 2 ^ 16 / 2 ^ e.toNat ∧
    (16 ≤ e.toNat → f.toNat = (x.toNat - 2 ^ e.toNat) / 2 ^ (e.toNat - 16)) ∧
    (e.toNat < 16 → f.toNat = (x.toNat - 2 ^ e.toNat) * 2 ^ (16 - e.toNat))

/-- INTERP.REF on a REF instance and INTERP.OPT on an OPT instance (R77 to R80, R82), for every operand in its bucket and every drop that is
not negative: both answer the same seed, the truncated linear interpolation. -/
def Obligations.InterpAnswersInterpolatedSeed : Prop :=
  ∀ (x : U32) (e : U5) (base next : U16) (s u : State), s.variant = .ref → u.variant = .opt →
    2 ^ e.toNat ≤ x.toNat → x.toNat < 2 ^ (e.toNat + 1) → next.toNat ≤ base.toNat →
    ∃ (s' u' : State) (y0 : U16),
    exec (.interpRef x e base next) s = .next s' ∧ s'.request = none ∧ s'.response = some (.seed y0) ∧
    KeepsBlock s s' ∧
    exec (.interpOpt x e base next) u = .next u' ∧ u'.request = none ∧ u'.response = some (.seed y0) ∧
    KeepsBlock u u' ∧
    (∀ q : Variant, decode q (.interpRef (((x ++ e) ++ base) ++ next)) = .interpRef x e base next ∧
      decode q (.interpOpt (((x ++ e) ++ base) ++ next)) = .interpOpt x e base next) ∧
    y0.toNat = base.toNat -
      (base.toNat - next.toNat) * ((x.toNat - 2 ^ e.toNat) * 2 ^ 16 / 2 ^ e.toNat) / 2 ^ 16

/-- RANGE, FRAC and INTERP complete on every operand tuple and every instance, those outside their contracts too (RANGE of 0, FRAC outside the
bucket, INTERP of a negative drop), and leave VARIANT and TABLE. Model's choices: that they run there, with results the spec does not
state (log 8, log 9, log 10), and that either INTERP runs on either variant (log 5). -/
def Obligations.OperandsOutsideContractComplete : Prop :=
  ∀ (x : U32) (e : U5) (base next : U16) (s : State),
    (∃ (t : State) (e' : U5) (b n : U16), exec (.range x) s = .next t ∧ t.request = none ∧
      t.response = some (.bucket e' b n) ∧ KeepsBlock s t) ∧
    (∃ (t : State) (f : U16), exec (.frac x e) s = .next t ∧ t.request = none ∧
      t.response = some (.frac f) ∧ KeepsBlock s t) ∧
    (∃ (t : State) (y0 : U16), exec (.interpRef x e base next) s = .next t ∧ t.request = none ∧
      t.response = some (.seed y0) ∧ KeepsBlock s t) ∧
    (∃ (t : State) (y0 : U16), exec (.interpOpt x e base next) s = .next t ∧ t.request = none ∧
      t.response = some (.seed y0) ∧ KeepsBlock s t)

/-- NEWTON.REF (R86) on a REF instance is the value function NEWTON of R85, for all operands. -/
def Obligations.NewtonRefIsValueFunction : Prop :=
  ∀ (x y : U32) (s : State), s.variant = .ref → ∃ (t : State) (z : U32),
    exec (.newtonRef x y) s = .next t ∧ t.request = none ∧ t.response = some (.estimate z) ∧
    KeepsBlock s t ∧ (∀ q : Variant, decode q (.newtonRef (x ++ y)) = .newtonRef x y) ∧
    z.toNat = newtonNat x.toNat y.toNat

/-- NEWTON.OPT (R87) on an OPT instance for all operands: its pseudocode on integers, with the bits its ports ignore cut, and equal to
NEWTON whenever `y < 2^16` and `term < 2^18`. -/
def Obligations.NewtonOptSplitsTerm : Prop :=
  ∀ (x y : U32) (s : State), s.variant = .opt → ∃ (t : State) (z : U32),
    exec (.newtonOpt x y) s = .next t ∧ t.request = none ∧ t.response = some (.estimate z) ∧
    KeepsBlock s t ∧ (∀ q : Variant, decode q (.newtonOpt (x ++ y)) = .newtonOpt x y) ∧
    (∀ h xy2 term : Nat, h = y.toNat % 2 ^ 16 → xy2 = x.toNat * (h * h) / 2 ^ 16 % 2 ^ 32 →
      term = (0x30000 + 2 ^ 32 - xy2) % 2 ^ 32 →
      z.toNat = (h * (term / 2 ^ 16 % 4) + 1 + h * (term % 2 ^ 16) / 2 ^ 16) / 2 ∧
      (y.toNat < 2 ^ 16 → term < 2 ^ 18 → z.toNat = newtonNat x.toNat y.toNat))

/-- RSQRT.REF (R101, R102) on a REF instance: 0 for `x = 0`; with TABLE valid, two Newton steps from the seed of the bucket of `x`; and the same
from the bucket's own two words for every other table whose drop there is not negative (R7, U9). -/
def Obligations.RsqrtRefIsTwoStepsFromSeed : Prop :=
  ∀ (x : U32) (s : State), s.variant = .ref → ∃ (t : State) (y : U32),
    exec (.rsqrtRef x) s = .next t ∧ t.request = none ∧ t.response = some (.y y) ∧
    KeepsBlock s t ∧ (∀ q : Variant, decode q (.rsqrtRef x) = .rsqrtRef x) ∧
    (x = 0#32 → y = 0#32) ∧
    (HoldsTable s.table → ∀ e : Nat, 2 ^ e ≤ x.toNat → x.toNat < 2 ^ (e + 1) →
      y.toNat = newtonNat x.toNat (newtonNat x.toNat (tableSeed x.toNat e))) ∧
    (∀ (e : U5) (next : U16), 2 ^ e.toNat ≤ x.toNat → x.toNat < 2 ^ (e.toNat + 1) →
      next = (if e.toNat < 31 then s.table.read (e + 1#5) else 1#16) →
      next.toNat ≤ (s.table.read e).toNat →
      y.toNat = newtonNat x.toNat
        (newtonNat x.toNat (seedNat x.toNat e.toNat (s.table.read e).toNat next.toNat)))

/-- RSQRT.OPT (R101, R103) on an OPT instance: 0 for `x = 0`; with TABLE valid, one Newton step from the seed of the bucket of `x`; and
NEWTON.OPT's own result on the seed from the bucket's two words for every other table whose drop there is not negative (R7, U9). -/
def Obligations.RsqrtOptIsOneStepFromSeed : Prop :=
  ∀ (x : U32) (s : State), s.variant = .opt → ∃ (t : State) (y : U32),
    exec (.rsqrtOpt x) s = .next t ∧ t.request = none ∧ t.response = some (.y y) ∧
    KeepsBlock s t ∧ (∀ q : Variant, decode q (.rsqrtOpt x) = .rsqrtOpt x) ∧
    (x = 0#32 → y = 0#32) ∧
    (HoldsTable s.table → ∀ e : Nat, 2 ^ e ≤ x.toNat → x.toNat < 2 ^ (e + 1) →
      y.toNat = newtonNat x.toNat (tableSeed x.toNat e)) ∧
    (∀ (e : U5) (next : U16), 2 ^ e.toNat ≤ x.toNat → x.toNat < 2 ^ (e.toNat + 1) →
      next = (if e.toNat < 31 then s.table.read (e + 1#5) else 1#16) →
      next.toNat ≤ (s.table.read e).toNat →
      ∃ y0 : U32, y0.toNat = seedNat x.toNat e.toNat (s.table.read e).toNat next.toNat ∧
        responseOf (exec (.newtonOpt x y0) s) = some (.estimate y))

/-! The units' structures against their contracts. -/

/-- After the five tests of R57 the remaining field is 0 for `v = 0` and 1 otherwise, and the count they give is the contract of R56. -/
def Obligations.ClzHalvingMeetsContract : Prop :=
  ∀ v : U32, (clzChunks.foldl clzTest (32#6, v)).2 = (if v = 0#32 then 0#32 else 1#32) ∧
    clz32ByHalving v = clz32 v

/-- The shift-add loop of R62 computes the contract of R61, whatever its registers held before (R17), and the early exits of R63
change no value: in particular a zero multiplier gives 0. -/
def Obligations.MulsaLoopMeetsContract : Prop :=
  ∀ (old : MulsaRegs) (a : U64) (b : U32),
    mulsaByLoop old a b = mulsa a b ∧ mulsaByLoopEarly old a b = mulsa a b ∧ mulsaByLoopEarly old a 0#32 = 0#64

/-- The nibble structure of R66 computes the contract of R65, whatever its registers held before (R17), and each partial product
fits the 20 bits of `pp`. -/
def Obligations.MulSixteenNibblesMeetContract : Prop :=
  ∀ (old : Mul16Regs) (a b : U16), mul16ByNibbles old a b = mul16 a b ∧
    ∀ n : BitVec 4, (nibbleProduct a n).toNat = a.toNat * n.toNat

/-! Properties of the whole operation. -/

/-- The seed lies above the next table word and not above the base word, and is 1 in the last bucket (R81 a), on an instance of
either variant by its own INTERP. -/
def Obligations.SeedLiesBetweenTableWords : Prop :=
  ∀ (x : U32) (s u : State), s.variant = .ref → u.variant = .opt → HoldsTable s.table → HoldsTable u.table → x ≠ 0#32 →
    ∃ (e : U5) (base next y0 : U16),
      responseOf (exec (.range x) s) = some (.bucket e base next) ∧
      responseOf (exec (.range x) u) = some (.bucket e base next) ∧
      responseOf (exec (.interpRef x e base next) s) = some (.seed y0) ∧
      responseOf (exec (.interpOpt x e base next) u) = some (.seed y0) ∧
      (e.toNat ≤ 30 → next.toNat < y0.toNat ∧ y0.toNat ≤ base.toNat) ∧
      (e.toNat = 31 → y0.toNat = 1 ∧ base.toNat = 1) ∧
      1 ≤ y0.toNat

/-- The seed is a non-increasing function of the operand over the whole range (R81 c, R107 a), in both schedules. -/
def Obligations.SeedNeverIncreases : Prop :=
  ∀ (m : Memory) (k : Nat) (a b : U32), HoldsTable m → 0 < a.toNat → a.toNat ≤ b.toNat →
    (seedRef k m b).toNat ≤ (seedRef k m a).toNat ∧ (seedOpt k m b).toNat ≤ (seedOpt k m a).toNat

/-- Nothing wraps (R89, R90, R92). In REF's two steps: every estimate is between 1 and 65536, every product `x * y^2` is below `2^34`, every
`xy2` is at most 147455 so that `term` needs no wrap, and every `y * term` is at most `2^33`. In OPT's one step (R87): `y[31:16] = 0`, the
square and `xy2` are exact, `term` needs no wrap and `term[31:18] = 0`, `ti` is at most 2, and `yi + 1 + (m >> 16)` is below `2^18`. -/
def Obligations.IntermediatesNeverWrap : Prop :=
  ∀ (m : Memory) (k : Nat) (x : U32), HoldsTable m → x ≠ 0#32 →
    (∀ y : U32, y = (seedRef k m x).setWidth 32 ∨ y = newtonRef x ((seedRef k m x).setWidth 32) →
      1 ≤ y.toNat ∧ y.toNat ≤ 65536 ∧ y.toNat * y.toNat ≤ 2 ^ 32 ∧ x.toNat * (y.toNat * y.toNat) < 2 ^ 34 ∧
      (xy2Ref x y).toNat = x.toNat * (y.toNat * y.toNat) / 2 ^ 16 ∧ (xy2Ref x y).toNat ≤ 147455 ∧
      (termOf (xy2Ref x y)).toNat = 196608 - (xy2Ref x y).toNat ∧
      y.toNat * (termOf (xy2Ref x y)).toNat ≤ 2 ^ 33) ∧
    (∀ (y sq xy2 term mp : U32) (y16 : U16), y = (seedOpt k m x).setWidth 32 → y16 = lowerHalf y →
      sq = mul16 y16 y16 → xy2 = xy2Opt x sq → term = termOf xy2 → mp = mul16 y16 (lowerHalf term) →
      1 ≤ y.toNat ∧ y.toNat < 2 ^ 16 ∧ upperHalf y = 0#16 ∧
      sq.toNat = y.toNat * y.toNat ∧ xy2.toNat = x.toNat * (y.toNat * y.toNat) / 2 ^ 16 ∧ xy2.toNat ≤ 147455 ∧
      term.toNat = 196608 - xy2.toNat ∧ term.toNat < 2 ^ 18 ∧ (termInt term).toNat ≤ 2 ∧
      (yTimesInt y16 (termInt term)).toNat = y.toNat * (term.toNat / 2 ^ 16) ∧
      mp.toNat = y.toNat * (term.toNat % 2 ^ 16) ∧
      (yTimesInt y16 (termInt term)).toNat + 1 + mp.toNat / 2 ^ 16 < 2 ^ 18)

/-- The block's response is the exact-arithmetic Newton step of R85's last sentence, applied NSTEPS times (R91) to the seed. -/
def Obligations.ResponseIsClosedFormulaIterated : Prop :=
  ∀ (s : State) (x : U32) (e : Nat), HoldsTable s.table → s.resetArrived = false →
    s.request = some (.rsqrt x) → 2 ^ e ≤ x.toNat → x.toNat < 2 ^ (e + 1) →
    ∃ (t : State) (y : U32), step s = .next t ∧ t.response = some (.y y) ∧
      y.toNat = (closedStep x.toNat)^[nsteps s.variant] (tableSeed x.toNat e)

/-- The optimal variant's result is the reference variant's intermediate estimate, one more step gives the reference variant's
result, and the two schedules share their seed (R104). -/
def Obligations.VariantsDifferByOneStep : Prop :=
  ∀ (x : U32) (s u : State), s.variant = .ref → u.variant = .opt → HoldsTable s.table → HoldsTable u.table →
    ∃ y1 y2 : U32,
      responseOf (exec (.rsqrtOpt x) u) = some (.y y1) ∧
      responseOf (exec (.rsqrtRef x) s) = some (.y y2) ∧
      responseOf (exec (.newtonRef x y1) s) = some (.estimate y2) ∧
      y2.toNat = newtonNat x.toNat y1.toNat ∧
      (x ≠ 0#32 → y1 = newtonRef x ((seedRef s.openCount s.table x).setWidth 32) ∧
        seedOpt u.openCount u.table x = seedRef s.openCount s.table x)

/-- Every result fits 17 bits (R106 a): it is 0 exactly for `x = 0` (R101), and 65536 exactly for `x = 1`, in both variants. -/
def Obligations.ResultRangeAndSentinel : Prop :=
  ∀ (x y : U32) (s : State), HoldsTable s.table →
    (s.variant = .ref ∧ responseOf (exec (.rsqrtRef x) s) = some (.y y)) ∨
      (s.variant = .opt ∧ responseOf (exec (.rsqrtOpt x) s) = some (.y y)) →
    y.toNat ≤ 65536 ∧ (y = 0#32 ↔ x = 0#32) ∧ (y.toNat = 65536 ↔ x = 1#32)

/-- The result `y` is near the true value `T = 65536 / sqrt(x)` from both sides: `y <= T + 1` in both variants (the iteration approaches
from below but for rounding, R94), `y > T - 1.122` for REF and `y > T - 118.23` for OPT (R106 b and c, the bounds over all buckets). -/
def Obligations.ResultNearTrueValue : Prop :=
  ∀ (x : U32) (s : State), HoldsTable s.table → x ≠ 0#32 →
    (s.variant = .ref → ∃ y : U32, responseOf (exec (.rsqrtRef x) s) = some (.y y) ∧
      x.toNat * (y.toNat - 1) ^ 2 ≤ 2 ^ 32 ∧
      10 ^ 6 * 2 ^ 32 < x.toNat * (1000 * y.toNat + 1122) ^ 2) ∧
    (s.variant = .opt → ∃ y : U32, responseOf (exec (.rsqrtOpt x) s) = some (.y y) ∧
      x.toNat * (y.toNat - 1) ^ 2 ≤ 2 ^ 32 ∧
      10 ^ 4 * 2 ^ 32 < x.toNat * (100 * y.toNat + 11823) ^ 2)

/-- The estimate 1 is a fixed point for `x >= 65536` and steps to 2 below that, in both realisations, and RSQRT(x) = 1 for every
`x >= 2^31` in both variants (R93). -/
def Obligations.UnitEstimateFixedPoint : Prop :=
  ∀ (x : U32) (s u : State), s.variant = .ref → u.variant = .opt →
    responseOf (exec (.newtonRef x 1#32) s) = some (.estimate (if 65536 ≤ x.toNat then 1#32 else 2#32)) ∧
    responseOf (exec (.newtonOpt x 1#32) u) = some (.estimate (if 65536 ≤ x.toNat then 1#32 else 2#32)) ∧
    (2 ^ 31 ≤ x.toNat →
      (HoldsTable s.table → responseOf (exec (.rsqrtRef x) s) = some (.y 1#32)) ∧
      (HoldsTable u.table → responseOf (exec (.rsqrtOpt x) u) = some (.y 1#32)))

/-! Whole-machine rules. -/

/-- For every sequence of requests to one instance with none in flight (R136), there is one response for each, in order, and the k-th
is RSQRT(x_k), a function of x_k, VARIANT and TABLE alone (R21, R109): 0 for zero, else the exact formula of R85 iterated from the seed.
With no request, no response is delivered (R109). -/
def Obligations.ResponsesIndependentOfHistory : Prop :=
  ∀ (s : State) (xs : List U32), HoldsTable s.table → s.resetArrived = false → s.request = none →
    serve s (xs.map Request.rsqrt) = xs.map (fun x => some (Response.y (rsqrt s.variant 0 s.table x))) ∧
    (∀ (x : U32) (k : Nat), rsqrt s.variant k s.table x = rsqrt s.variant 0 s.table x) ∧
    rsqrt s.variant 0 s.table 0#32 = 0#32 ∧
    (∀ (x : U32) (e : Nat), 2 ^ e ≤ x.toNat → x.toNat < 2 ^ (e + 1) →
      (rsqrt s.variant 0 s.table x).toNat = (closedStep x.toNat)^[nsteps s.variant] (tableSeed x.toNat e)) ∧
    (∃ t : State, step s = .next t ∧ t.response = none)

/-- The same where requests to units on their own, of either variant, stand between the block's requests: one response for each, and the k-th is
RSQRT(x_k) wherever the k-th request is the block's x_k. Model's choices: that units can be asked on their own, and on either variant
(log 4, log 5), and that RANGE of 0, and FRAC and INTERP outside their contracts, are answered at all (log 8, log 9, log 10). -/
def Obligations.UnitRequestsLeaveNoTrace : Prop :=
  ∀ (s : State) (rs : List Request), HoldsTable s.table → s.resetArrived = false → s.request = none →
    (serve s rs).length = rs.length ∧
    (∀ o ∈ serve s rs, o ≠ none) ∧
    ∀ (k : Nat) (x : U32), rs[k]? = some (.rsqrt x) →
      (serve s rs)[k]? = some (some (.y (rsqrt s.variant 0 s.table x)))

/-- An operation inside its contract reads nothing an earlier one left: not the multiplier registers (R17), not the step counter
(R13), not the model's own counter (R11). Two states with the same table words give the same response. That they may be instances of
different variants is the model's choice (log 5). -/
def Obligations.ResponseIgnoresLeftovers : Prop :=
  ∀ (i : Instr) (s u : State), HoldsTable s.table → HoldsTable u.table → i.wellFormed = true →
    ∃ (s' u' : State) (r : Response), exec i s = .next s' ∧ exec i u = .next u' ∧
      s'.response = some r ∧ u'.response = some r

/-- What the model leaves as it was, by its own choice: a multiplier that an operation does not use keeps its registers, though U8 promises no
value (log 13), the step counter and the reset input are no operation's (log 14, log 16), the model's own counter never falls
(log 13), and an idle step changes nothing but the shown response (log 11). -/
def Obligations.IdleRegistersKeepValuesByChoice : Prop :=
  (∀ (i : Instr) (s : State), ∃ t : State, exec i s = .next t ∧
    (usesMulsa i = false → t.mulsa = s.mulsa) ∧ (usesMul16 i = false → t.mul16 = s.mul16) ∧
    t.stepCounter = s.stepCounter ∧ t.resetArrived = s.resetArrived ∧ s.openCount ≤ t.openCount) ∧
  (∀ s : State, s.resetArrived = false → s.request = none → step s = .next { s with response := none })

/-- Every operation runs alike on an instance of either variant, also where R60 puts its unit only in the other: the model's choice
(log 5). -/
def Obligations.OtherVariantOperationsRunAlike : Prop :=
  ∀ (i : Instr) (s : State) (v : Variant), ∃ t : State, exec i s = .next t ∧
    exec i { s with variant := v } = .next { t with variant := v }

/-- Every step keeps the invariant, from every state that has it: TABLE stays canonical and valid, a Y response lies in 0..65536, a count in
0..32, a table word is at least 1. -/
def Obligations.StepKeepsBlockInvariant : Prop :=
  ∀ s t : State, Inv s → step s = .next t → Inv t

/-- The invariant holds right after reset, in either variant. -/
def Obligations.ResetMeetsBlockInvariant : Prop :=
  Inv State.reset ∧ ∀ v : Variant, Inv (State.resetOf v [])

/-- No step changes TABLE or VARIANT, whatever the table (R11, R18, R125 a): in particular a canonical table stays canonical. -/
def Obligations.StepChangesNoTableWord : Prop :=
  ∀ s t : State, step s = .next t →
    t.table = s.table ∧ t.variant = s.variant ∧ (∀ i : U5, t.table.read i = s.table.read i) ∧
      (s.table.wf = true → t.table.wf = true)
end

