-- ==== Sys2Proof/Laws/State.lean ====
section
/-! SUPPORT. One lemma per field per update of State, so that no later proof unfolds an update. -/

namespace Sys2Proof.Machine

@[simp] theorem State.present_variant (s : State) (r : Request) : (s.present r).variant = s.variant := rfl
@[simp] theorem State.present_table (s : State) (r : Request) : (s.present r).table = s.table := rfl
@[simp] theorem State.present_request (s : State) (r : Request) : (s.present r).request = some r := rfl
@[simp] theorem State.present_response (s : State) (r : Request) : (s.present r).response = none := rfl
@[simp] theorem State.present_resetArrived (s : State) (r : Request) : (s.present r).resetArrived = s.resetArrived := rfl
@[simp] theorem State.present_mulsa (s : State) (r : Request) : (s.present r).mulsa = s.mulsa := rfl
@[simp] theorem State.present_mul16 (s : State) (r : Request) : (s.present r).mul16 = s.mul16 := rfl
@[simp] theorem State.present_stepCounter (s : State) (r : Request) : (s.present r).stepCounter = s.stepCounter := rfl
@[simp] theorem State.present_openCount (s : State) (r : Request) : (s.present r).openCount = s.openCount := rfl

@[simp] theorem State.answer_variant (s : State) (r : Response) : (s.answer r).variant = s.variant := rfl
@[simp] theorem State.answer_table (s : State) (r : Response) : (s.answer r).table = s.table := rfl
@[simp] theorem State.answer_request (s : State) (r : Response) : (s.answer r).request = none := rfl
@[simp] theorem State.answer_response (s : State) (r : Response) : (s.answer r).response = some r := rfl
@[simp] theorem State.answer_resetArrived (s : State) (r : Response) : (s.answer r).resetArrived = s.resetArrived := rfl
@[simp] theorem State.answer_mulsa (s : State) (r : Response) : (s.answer r).mulsa = s.mulsa := rfl
@[simp] theorem State.answer_mul16 (s : State) (r : Response) : (s.answer r).mul16 = s.mul16 := rfl
@[simp] theorem State.answer_stepCounter (s : State) (r : Response) : (s.answer r).stepCounter = s.stepCounter := rfl
@[simp] theorem State.answer_openCount (s : State) (r : Response) : (s.answer r).openCount = s.openCount := rfl

@[simp] theorem State.spendOpen_variant (s : State) : s.spendOpen.variant = s.variant := rfl
@[simp] theorem State.spendOpen_table (s : State) : s.spendOpen.table = s.table := rfl
@[simp] theorem State.spendOpen_request (s : State) : s.spendOpen.request = s.request := rfl
@[simp] theorem State.spendOpen_response (s : State) : s.spendOpen.response = s.response := rfl
@[simp] theorem State.spendOpen_resetArrived (s : State) : s.spendOpen.resetArrived = s.resetArrived := rfl
@[simp] theorem State.spendOpen_mulsa (s : State) : s.spendOpen.mulsa = s.mulsa := rfl
@[simp] theorem State.spendOpen_mul16 (s : State) : s.spendOpen.mul16 = s.mul16 := rfl
@[simp] theorem State.spendOpen_stepCounter (s : State) : s.spendOpen.stepCounter = s.stepCounter := rfl
@[simp] theorem State.spendOpen_openCount (s : State) : s.spendOpen.openCount = s.openCount + 1 := rfl

@[simp] theorem State.spendMulsa_variant (s : State) : s.spendMulsa.variant = s.variant := rfl
@[simp] theorem State.spendMulsa_table (s : State) : s.spendMulsa.table = s.table := rfl
@[simp] theorem State.spendMulsa_request (s : State) : s.spendMulsa.request = s.request := rfl
@[simp] theorem State.spendMulsa_response (s : State) : s.spendMulsa.response = s.response := rfl
@[simp] theorem State.spendMulsa_resetArrived (s : State) : s.spendMulsa.resetArrived = s.resetArrived := rfl
@[simp] theorem State.spendMulsa_mulsa (s : State) : s.spendMulsa.mulsa = { a := Config.openMulsaA s.openCount, b := Config.openMulsaB s.openCount, acc := Config.openMulsaAcc s.openCount } := rfl
@[simp] theorem State.spendMulsa_mul16 (s : State) : s.spendMulsa.mul16 = s.mul16 := rfl
@[simp] theorem State.spendMulsa_stepCounter (s : State) : s.spendMulsa.stepCounter = s.stepCounter := rfl
@[simp] theorem State.spendMulsa_openCount (s : State) : s.spendMulsa.openCount = s.openCount + 1 := rfl

@[simp] theorem State.spendMul16_variant (s : State) : s.spendMul16.variant = s.variant := rfl
@[simp] theorem State.spendMul16_table (s : State) : s.spendMul16.table = s.table := rfl
@[simp] theorem State.spendMul16_request (s : State) : s.spendMul16.request = s.request := rfl
@[simp] theorem State.spendMul16_response (s : State) : s.spendMul16.response = s.response := rfl
@[simp] theorem State.spendMul16_resetArrived (s : State) : s.spendMul16.resetArrived = s.resetArrived := rfl
@[simp] theorem State.spendMul16_mulsa (s : State) : s.spendMul16.mulsa = s.mulsa := rfl
@[simp] theorem State.spendMul16_mul16 (s : State) : s.spendMul16.mul16 = { acc := Config.openMul16Acc s.openCount, pp := Config.openMul16Pp s.openCount } := rfl
@[simp] theorem State.spendMul16_stepCounter (s : State) : s.spendMul16.stepCounter = s.stepCounter := rfl
@[simp] theorem State.spendMul16_openCount (s : State) : s.spendMul16.openCount = s.openCount + 1 := rfl

@[simp] theorem State.idle_variant (s : State) : s.idle.variant = s.variant := rfl
@[simp] theorem State.idle_table (s : State) : s.idle.table = s.table := rfl
@[simp] theorem State.idle_request (s : State) : s.idle.request = s.request := rfl
@[simp] theorem State.idle_response (s : State) : s.idle.response = none := rfl
@[simp] theorem State.idle_resetArrived (s : State) : s.idle.resetArrived = s.resetArrived := rfl
@[simp] theorem State.idle_mulsa (s : State) : s.idle.mulsa = s.mulsa := rfl
@[simp] theorem State.idle_mul16 (s : State) : s.idle.mul16 = s.mul16 := rfl
@[simp] theorem State.idle_stepCounter (s : State) : s.idle.stepCounter = s.stepCounter := rfl
@[simp] theorem State.idle_openCount (s : State) : s.idle.openCount = s.openCount := rfl

@[simp] theorem State.blockReset_variant (s : State) : s.blockReset.variant = s.variant := rfl
@[simp] theorem State.blockReset_table (s : State) : s.blockReset.table = s.table := rfl
@[simp] theorem State.blockReset_request (s : State) : s.blockReset.request = none := rfl
@[simp] theorem State.blockReset_response (s : State) : s.blockReset.response = none := rfl
@[simp] theorem State.blockReset_resetArrived (s : State) : s.blockReset.resetArrived = false := rfl
@[simp] theorem State.blockReset_mulsa (s : State) : s.blockReset.mulsa = { a := Config.openMulsaA s.openCount, b := Config.openMulsaB s.openCount, acc := Config.openMulsaAcc s.openCount } := rfl
@[simp] theorem State.blockReset_mul16 (s : State) : s.blockReset.mul16 = { acc := Config.openMul16Acc s.openCount, pp := Config.openMul16Pp s.openCount } := rfl
@[simp] theorem State.blockReset_stepCounter (s : State) : s.blockReset.stepCounter = Config.openStepCounter s.openCount := rfl
@[simp] theorem State.blockReset_openCount (s : State) : s.blockReset.openCount = s.openCount + 1 := rfl

@[simp] theorem State.resetOf_variant (v : Variant) (m : Memory) : (State.resetOf v m).variant = v := rfl
@[simp] theorem State.resetOf_table (v : Variant) (m : Memory) : (State.resetOf v m).table = m := rfl
@[simp] theorem State.resetOf_request (v : Variant) (m : Memory) : (State.resetOf v m).request = none := rfl
@[simp] theorem State.resetOf_response (v : Variant) (m : Memory) : (State.resetOf v m).response = none := rfl
@[simp] theorem State.resetOf_resetArrived (v : Variant) (m : Memory) : (State.resetOf v m).resetArrived = false := rfl
@[simp] theorem State.resetOf_mulsa (v : Variant) (m : Memory) : (State.resetOf v m).mulsa = { a := 0#64, b := 0#32, acc := 0#64 } := rfl
@[simp] theorem State.resetOf_mul16 (v : Variant) (m : Memory) : (State.resetOf v m).mul16 = { acc := 0#32, pp := 0#20 } := rfl
@[simp] theorem State.resetOf_stepCounter (v : Variant) (m : Memory) : (State.resetOf v m).stepCounter = 0 := rfl
@[simp] theorem State.resetOf_openCount (v : Variant) (m : Memory) : (State.resetOf v m).openCount = 0 := rfl

/-- What the block asks for next depends on the request and the variant alone. -/
@[simp] theorem State.fetch_present (s : State) (r : Request) : (s.present r).fetch = some (decode s.variant r) := rfl

end Sys2Proof.Machine
end

