-- ==== Sys2Proof/Laws/Exec.lean ====
section
/-! SUPPORT. What each arm of exec answers, so that no later proof unfolds exec or a meaning; and the two halves of a concatenated request word. -/

namespace Sys2Proof.Machine

@[simp] theorem exec_rsqrtRef (x : U32) (s : State) :
    exec (.rsqrtRef x) s = .next (s.answer (.y (rsqrtRef s.openCount s.table x))).spendMulsa := rfl
@[simp] theorem exec_rsqrtOpt (x : U32) (s : State) :
    exec (.rsqrtOpt x) s = .next (s.answer (.y (rsqrtOpt s.openCount s.table x))).spendMul16 := rfl
@[simp] theorem exec_clz32 (v : U32) (s : State) : exec (.clz32 v) s = .next (s.answer (.count (clz32 v))) := rfl
@[simp] theorem exec_mulsa (a : U64) (b : U32) (s : State) :
    exec (.mulsa a b) s = .next (s.answer (.prod64 (mulsa a b))).spendMulsa := rfl
@[simp] theorem exec_mul16 (a b : U16) (s : State) :
    exec (.mul16 a b) s = .next (s.answer (.prod32 (mul16 a b))).spendMul16 := rfl
@[simp] theorem exec_xy2Opt (x sq : U32) (s : State) :
    exec (.xy2Opt x sq) s = .next (s.answer (.xy2 (xy2Opt x sq))).spendMul16 := rfl
@[simp] theorem exec_romrd (i : U5) (s : State) : exec (.romrd i) s = .next (s.answer (.word (s.table.read i))) := rfl
@[simp] theorem exec_range (x : U32) (s : State) :
    exec (.range x) s = .next (s.answer (.bucket (range s.openCount s.table x).exp
      (range s.openCount s.table x).yBase (range s.openCount s.table x).yNext)).spendOpen := rfl
@[simp] theorem exec_frac (x : U32) (e : U5) (s : State) :
    exec (.frac x e) s = .next (s.answer (.frac (frac s.openCount x e))).spendOpen := rfl
@[simp] theorem exec_interpRef (x : U32) (e : U5) (base next : U16) (s : State) :
    exec (.interpRef x e base next) s = .next (s.answer (.seed (interpRef s.openCount x e base next))).spendMulsa := rfl
@[simp] theorem exec_interpOpt (x : U32) (e : U5) (base next : U16) (s : State) :
    exec (.interpOpt x e base next) s = .next (s.answer (.seed (interpOpt s.openCount x e base next))).spendMul16 := rfl
@[simp] theorem exec_newtonRef (x y : U32) (s : State) :
    exec (.newtonRef x y) s = .next (s.answer (.estimate (newtonRef x y))).spendMulsa := rfl
@[simp] theorem exec_newtonOpt (x y : U32) (s : State) :
    exec (.newtonOpt x y) s = .next (s.answer (.estimate (newtonOpt x y))).spendMul16 := rfl

@[simp] theorem responseOf_next (t : State) : responseOf (.next t) = t.response := rfl

/-- `{a, b}` of R9 as a number. -/
theorem append_toNat {n m : Nat} (a : BitVec n) (b : BitVec m) : (a ++ b).toNat = a.toNat * 2 ^ m + b.toNat := by
  rw [BitVec.toNat_append, ← Nat.shiftLeft_add_eq_or_of_lt b.isLt, Nat.shiftLeft_eq]

/-- The upper part of a concatenation is its first operand. -/
theorem upper_of_append {n m : Nat} (a : BitVec n) (b : BitVec m) : BitVec.extractLsb' m n (a ++ b) = a := by
  apply BitVec.eq_of_toNat_eq
  rw [BitVec.extractLsb'_toNat, append_toNat, Nat.shiftRight_eq_div_pow, Nat.mul_comm,
    Nat.mul_add_div (Nat.two_pow_pos m), Nat.div_eq_of_lt b.isLt]
  simp

/-- The lower part of a concatenation is its second operand. -/
theorem lower_of_append {n m : Nat} (a : BitVec n) (b : BitVec m) : BitVec.extractLsb' 0 m (a ++ b) = b := by
  apply BitVec.eq_of_toNat_eq
  rw [BitVec.extractLsb'_toNat, append_toNat]
  simp [Nat.mod_eq_of_lt b.isLt]

end Sys2Proof.Machine
end

