-- ==== Sys2Proof/Laws/Ops.lean ====
section
/-! SUPPORT. What each shared operation can do, said once: TABLE's operations keep the canonical form, the words of R33, the values of the splits and of the multipliers, and the shape of a step. -/

namespace Sys2Proof.Machine

/-! TABLE. -/

theorem Memory.wfFrom_mono {lo lo' : Nat} (h : lo' ≤ lo) {m : Memory} (hm : Memory.wfFrom lo m = true) :
    Memory.wfFrom lo' m = true := by
  cases m with
  | nil => rfl
  | cons c rest =>
    simp only [Memory.wfFrom, Bool.and_eq_true, decide_eq_true_eq] at hm ⊢
    exact ⟨⟨⟨by omega, hm.1.1.2⟩, hm.1.2⟩, hm.2⟩

/-- Setting a word keeps the canonical form above any index not above it. -/
theorem Memory.insert_wfFrom {m : Memory} {lo i : Nat} {w : U16} (hm : Memory.wfFrom lo m = true)
    (hlo : lo ≤ i) (hi : i < 32) : Memory.wfFrom lo (Memory.insert m i w) = true := by
  induction m generalizing lo with
  | nil => by_cases hw : w = tableWord i <;> simp [Memory.insert, Memory.wfFrom, hw, hlo, hi]
  | cons c rest ih =>
    obtain ⟨k, v⟩ := c
    have hm' := hm
    simp only [Memory.wfFrom, Bool.and_eq_true, decide_eq_true_eq, bne_iff_ne] at hm'
    obtain ⟨⟨⟨hk, hk32⟩, hv⟩, hrest⟩ := hm'
    unfold Memory.insert
    split
    · by_cases hw : w = tableWord i
      · simpa [hw] using hm
      · have : i + 1 ≤ k := by omega
        simp [hw, Memory.wfFrom, hlo, hi, hk32, hv, hrest, this]
    · split
      · rename_i _ hik
        subst hik
        by_cases hw : w = tableWord i
        · simpa [hw] using Memory.wfFrom_mono (by omega) hrest
        · simp [hw, Memory.wfFrom, hlo, hi, hrest]
      · have := ih hrest (by omega)
        simp [Memory.wfFrom, hk, hk32, hv, this]

/-- The one operation that sets a word keeps the canonical form. Reading changes nothing, and no step sets a word. -/
theorem Memory.write_wf {m : Memory} (hm : m.wf = true) (i : U5) (w : U16) : (m.write i w).wf = true :=
  Memory.insert_wfFrom hm (Nat.zero_le _) i.isLt

/-- Looking below everything listed finds the default word. -/
theorem Memory.lookup_of_wfFrom {m : Memory} {lo i : Nat} (hm : Memory.wfFrom lo m = true) (h : i < lo) :
    Memory.lookup m i = tableWord i := by
  induction m generalizing lo with
  | nil => rfl
  | cons c rest ih =>
    obtain ⟨k, v⟩ := c
    simp only [Memory.wfFrom, Bool.and_eq_true, decide_eq_true_eq, bne_iff_ne] at hm
    have hk : k ≠ i := by omega
    simpa [Memory.lookup, hk] using ih hm.2 (by omega)

theorem Memory.lookup_insert {m : Memory} {lo i : Nat} {w : U16} (hm : Memory.wfFrom lo m = true) (j : Nat) :
    Memory.lookup (Memory.insert m i w) j = if j = i then w else Memory.lookup m j := by
  induction m generalizing lo with
  | nil =>
    by_cases hw : w = tableWord i <;> by_cases hj : j = i
    · simp [Memory.insert, Memory.lookup, hw, hj]
    · simp [Memory.insert, Memory.lookup, hw, hj]
    · simp [Memory.insert, Memory.lookup, hw, hj]
    · simp [Memory.insert, Memory.lookup, hw, hj, Ne.symm hj]
  | cons c rest ih =>
    obtain ⟨k, v⟩ := c
    simp only [Memory.wfFrom, Bool.and_eq_true, decide_eq_true_eq, bne_iff_ne] at hm
    have hrest := hm.2
    unfold Memory.insert
    split
    · rename_i hik
      by_cases hw : w = tableWord i
      · by_cases hj : j = i
        · have hk : k ≠ i := by omega
          subst hj
          simp [hw, Memory.lookup, hk, Memory.lookup_of_wfFrom hrest (by omega : j < k + 1)]
        · simp [hw, hj]
      · by_cases hj : j = i
        · simp [hw, hj, Memory.lookup]
        · simp [hw, hj, Memory.lookup, Ne.symm hj]
    · split
      · rename_i _ hik
        subst hik
        by_cases hw : w = tableWord i
        · by_cases hj : j = i
          · subst hj
            simp [hw, Memory.lookup_of_wfFrom hrest (by omega : j < j + 1)]
          · simp [hw, hj, Memory.lookup, Ne.symm hj]
        · by_cases hj : j = i
          · simp [hw, hj, Memory.lookup]
          · simp [hw, hj, Memory.lookup, Ne.symm hj]
      · rename_i hik hne
        by_cases hkj : k = j
        · have : j ≠ i := by omega
          simp [Memory.lookup, hkj, this]
        · simp only [Memory.lookup, if_neg hkj]
          exact ih hrest

/-- Reading after a write: the word written at its index, and every other word as before. -/
theorem Memory.read_write {m : Memory} (hm : m.wf = true) (i j : U5) (w : U16) :
    (m.write i w).read j = if j = i then w else m.read j := by
  have h := Memory.lookup_insert (i := i.toNat) (w := w) hm j.toNat
  simpa [Memory.read, Memory.write, BitVec.toNat_inj] using h

/-- A canonical table with the words of R33 lists nothing. -/
theorem Memory.eq_nil_of_holdsTable {m : Memory} (hm : m.wf = true) (h : HoldsTable m) : m = [] := by
  cases m with
  | nil => rfl
  | cons c rest =>
    obtain ⟨k, v⟩ := c
    simp only [Memory.wf, Memory.wfFrom, Bool.and_eq_true, decide_eq_true_eq, bne_iff_ne] at hm
    have hk : k < 32 := hm.1.1.2
    have := h (BitVec.ofNat 5 k)
    simp [Memory.read, Memory.lookup, Nat.mod_eq_of_lt hk] at this
    exact absurd this hm.1.2

theorem holdsTable_nil : HoldsTable [] := fun _ => rfl

/-- The table is strictly decreasing (R34 a). -/
theorem tableWord_succ_lt {i : Nat} (h : i < 31) : (tableWord (i + 1)).toNat < (tableWord i).toNat := by
  revert i
  decide

/-- Every word is at least 1 (R34 b). -/
theorem one_le_tableWord {i : Nat} (h : i < 32) : 1 ≤ (tableWord i).toNat := by
  revert i
  decide

/-! The splits of R45 and the multipliers, as numbers. -/

@[simp] theorem upperHalf_toNat (v : U32) : (upperHalf v).toNat = v.toNat / 2 ^ 16 := by
  have := v.isLt
  simp [upperHalf, Nat.shiftRight_eq_div_pow]
  omega

@[simp] theorem lowerHalf_toNat (v : U32) : (lowerHalf v).toNat = v.toNat % 2 ^ 16 := by
  simp [lowerHalf]

@[simp] theorem termInt_toNat (v : U32) : (termInt v).toNat = v.toNat / 2 ^ 16 % 4 := by
  simp [termInt, Nat.shiftRight_eq_div_pow]

@[simp] theorem bits47to16_toNat (p : U64) : (bits47to16 p).toNat = p.toNat / 2 ^ 16 % 2 ^ 32 := by
  simp [bits47to16, Nat.shiftRight_eq_div_pow]

@[simp] theorem bits48to17_toNat (p : U64) : (bits48to17 p).toNat = p.toNat / 2 ^ 17 % 2 ^ 32 := by
  simp [bits48to17, Nat.shiftRight_eq_div_pow]

theorem inBucket_iff (x : U32) (e : U5) :
    inBucket x e = true ↔ 2 ^ e.toNat ≤ x.toNat ∧ x.toNat < 2 ^ (e.toNat + 1) := by
  simp [inBucket]

@[simp] theorem isZeroOperand_iff (x : U32) : isZeroOperand x = true ↔ x = 0#32 := by
  simp [isZeroOperand]

/-! The shape of a step. -/

/-- A step is a reset event, an idle step, or the operation asked for. -/
theorem step_cases (s : State) :
    (s.resetArrived = true ∧ step s = .next s.blockReset) ∨
    (s.resetArrived = false ∧ s.request = none ∧ step s = .next s.idle) ∨
    ∃ r, s.resetArrived = false ∧ s.request = some r ∧ step s = exec (decode s.variant r) s := by
  cases hr : s.resetArrived
  · cases hq : s.request with
    | none => exact .inr (.inl ⟨rfl, rfl, by simp [step, hr, State.fetch, hq]⟩)
    | some r => exact .inr (.inr ⟨r, rfl, rfl, by simp [step, hr, State.fetch, hq]⟩)
  · exact .inl ⟨rfl, by simp [step, hr]⟩

end Sys2Proof.Machine
end

