-- ==== Sys2Proof/Laws/PerInstr.lean ====
section
/-! SUPPORT. The per-instruction family: every operation's request word has the width of its row in the operation table (R42, R46). -/

namespace Sys2Proof.Laws

/-- The `width` column of the operation table, by mnemonic. -/
def rowWidth (mnemonic : String) : Nat :=
  if mnemonic = "MULSA" then 96
  else if mnemonic = "XY2.OPT" then 64
  else if mnemonic = "ROMRD" then 5
  else if mnemonic = "FRAC" then 37
  else if mnemonic = "INTERP.REF" then 69
  else if mnemonic = "INTERP.OPT" then 69
  else if mnemonic = "NEWTON.REF" then 64
  else if mnemonic = "NEWTON.OPT" then 64
  else 32

namespace RequestWidth

/-- The encoder's word is as wide as the table's row. -/
def Statement (i : Instr) : Prop := (encode i).width = rowWidth i.mnemonic

theorem rsqrtRef (x : U32) : Statement (.rsqrtRef x) := by simp [Statement, encode, Request.width, rowWidth, Instr.mnemonic]
theorem rsqrtOpt (x : U32) : Statement (.rsqrtOpt x) := by simp [Statement, encode, Request.width, rowWidth, Instr.mnemonic]
theorem clz32 (v : U32) : Statement (.clz32 v) := by simp [Statement, encode, Request.width, rowWidth, Instr.mnemonic]
theorem mulsa (a : U64) (b : U32) : Statement (.mulsa a b) := by simp [Statement, encode, Request.width, rowWidth, Instr.mnemonic]
theorem mul16 (a b : U16) : Statement (.mul16 a b) := by simp [Statement, encode, Request.width, rowWidth, Instr.mnemonic]
theorem xy2Opt (x sq : U32) : Statement (.xy2Opt x sq) := by simp [Statement, encode, Request.width, rowWidth, Instr.mnemonic]
theorem romrd (i : U5) : Statement (.romrd i) := by simp [Statement, encode, Request.width, rowWidth, Instr.mnemonic]
theorem range (x : U32) : Statement (.range x) := by simp [Statement, encode, Request.width, rowWidth, Instr.mnemonic]
theorem frac (x : U32) (exp : U5) : Statement (.frac x exp) := by simp [Statement, encode, Request.width, rowWidth, Instr.mnemonic]
theorem interpRef (x : U32) (exp : U5) (yBase yNext : U16) : Statement (.interpRef x exp yBase yNext) := by
  simp [Statement, encode, Request.width, rowWidth, Instr.mnemonic]
theorem interpOpt (x : U32) (exp : U5) (yBase yNext : U16) : Statement (.interpOpt x exp yBase yNext) := by
  simp [Statement, encode, Request.width, rowWidth, Instr.mnemonic]
theorem newtonRef (x y : U32) : Statement (.newtonRef x y) := by simp [Statement, encode, Request.width, rowWidth, Instr.mnemonic]
theorem newtonOpt (x y : U32) : Statement (.newtonOpt x y) := by simp [Statement, encode, Request.width, rowWidth, Instr.mnemonic]

end RequestWidth

end Sys2Proof.Laws
end

