-- ==== Sys2Proof/Tests/Slice0.lean ====
section
/-! SUPPORT. Tests. Expected results are the spec's own: the vectors of 95_test_vectors.md (V<section>) and the corner cases of the rules named. -/

namespace Sys2Proof.Tests

open Sys2Proof Sys2Proof.Machine

/-- The response of one operation on a reset instance. -/
def answerOf (i : Instr) : Option Response := responseOf (exec i State.reset)

/-- The response of one step of an instance of variant `v` to a request. -/
def served (v : Variant) (r : Request) : Option Response := responseOf (step ((State.resetOf v []).present r))

/-! The operand contracts refuse what they should (R75, R77, R78). -/

theorem test_wellFormed_refuses_range_zero : (Instr.range 0#32).wellFormed = false := by decide
theorem test_wellFormed_refuses_frac_zero : (Instr.frac 0#32 3#5).wellFormed = false := by decide
theorem test_wellFormed_refuses_frac_below_bucket : (Instr.frac 1000#32 10#5).wellFormed = false := by decide
theorem test_wellFormed_refuses_frac_above_bucket : (Instr.frac 1000#32 8#5).wellFormed = false := by decide
theorem test_wellFormed_refuses_interpRef_bucket : (Instr.interpRef 1000#32 8#5 2896#16 2048#16).wellFormed = false := by decide
theorem test_wellFormed_refuses_interpRef_drop : (Instr.interpRef 1000#32 9#5 2048#16 2896#16).wellFormed = false := by decide
theorem test_wellFormed_refuses_interpOpt_bucket : (Instr.interpOpt 1000#32 8#5 2896#16 2048#16).wellFormed = false := by decide
theorem test_wellFormed_refuses_interpOpt_drop : (Instr.interpOpt 1000#32 9#5 2048#16 2896#16).wellFormed = false := by decide
theorem test_wellFormed_accepts_frac_top : (Instr.frac 0xFFFFFFFF#32 31#5).wellFormed = true := by decide

/-! Every constructor decodes from a word written out from R42's formats (V8.1, V8.2, V8.7). -/

theorem test_decode_block_ref : decode .ref (.rsqrt 0x000003E8#32) = .rsqrtRef 1000#32 := by decide
theorem test_decode_block_opt : decode .opt (.rsqrt 0x000003E8#32) = .rsqrtOpt 1000#32 := by decide
theorem test_decode_rsqrtRef : decode .opt (.rsqrtRef 0x000003E8#32) = .rsqrtRef 1000#32 := by decide
theorem test_decode_rsqrtOpt : decode .ref (.rsqrtOpt 0x00000003#32) = .rsqrtOpt 3#32 := by decide
theorem test_decode_clz32 : decode .ref (.clz32 0x00010000#32) = .clz32 65536#32 := by decide
theorem test_decode_mulsa : decode .ref (.mulsa 0x00000000000008280001FC24#96) = .mulsa 2088#64 130084#32 := by decide
theorem test_decode_mul16 : decode .ref (.mul16 0x9A83E83B#32) = .mul16 39555#16 59451#16 := by decide
theorem test_decode_xy2Opt : decode .ref (.xy2Opt 0x000003E800428640#64) = .xy2Opt 1000#32 4359744#32 := by decide
theorem test_decode_romrd : decode .ref (.romrd 0b10011#5) = .romrd 19#5 := by decide
theorem test_decode_range : decode .ref (.range 0x7FFFFFFF#32) = .range 2147483647#32 := by decide
theorem test_decode_frac : decode .ref (.frac 0x0000300010#37) = .frac 98304#32 16#5 := by decide
theorem test_decode_interpRef :
    decode .ref (.interpRef (0x00000007#32 ++ 0b00010#5 ++ 0x8000#16 ++ 0x5A82#16)) = .interpRef 7#32 2#5 32768#16 23170#16 := by
  decide
theorem test_decode_interpOpt :
    decode .ref (.interpOpt 0b000000000000000000000000000001110001010000000000000000101101010000010#69)
      = .interpOpt 7#32 2#5 32768#16 23170#16 := by decide
theorem test_decode_newtonRef : decode .ref (.newtonRef 0x0000000300009357#64) = .newtonRef 3#32 37719#32 := by decide
theorem test_decode_newtonOpt : decode .ref (.newtonOpt 0x0000006400001ABB#64) = .newtonOpt 100#32 6843#32 := by decide
theorem test_table_word_mulsa : decodeTableWord 96 0x0000000100000000FFFFFFFF = some (.mulsa 0x100000000#64 0xFFFFFFFF#32) := by decide
theorem test_table_word_romrd_too_wide : requestOfWord 8 0x20 = .error (.widerThanPort 5) := by rfl
theorem test_table_word_no_width : requestOfWord 16 0 = .error (.noSuchWidth 16) := by rfl

/-! The units (V2 to V6, V8.7). -/

theorem test_clz32_zero : answerOf (.clz32 0#32) = some (.count 32#6) := by decide
theorem test_clz32_1000 : answerOf (.clz32 1000#32) = some (.count 22#6) := by decide
theorem test_clz_halving : clz32ByHalving 0x00010000#32 = 15#6 := by decide
theorem test_mulsa_wide : answerOf (.mulsa 0x100000000#64 0xFFFFFFFF#32) = some (.prod64 0xFFFFFFFF00000000#64) := by decide
theorem test_mulsa_wraps : answerOf (.mulsa 0xFFFFFFFFFFFFFFFF#64 2#32) = some (.prod64 0xFFFFFFFFFFFFFFFE#64) := by decide
theorem test_mulsa_loop : mulsaByLoop State.reset.mulsa 4359744#64 1000#32 = 4359744000#64 := by decide
theorem test_mulsa_loop_early : mulsaByLoopEarly State.reset.mulsa 3#64 5#32 = 15#64 := by decide
theorem test_mul16_largest : answerOf (.mul16 0xFFFF#16 0xFFFF#16) = some (.prod32 0xFFFE0001#32) := by decide
theorem test_mul16_nibble : answerOf (.mul16 4660#16 240#16) = some (.prod32 1118400#32) := by decide
theorem test_mul16_nibbles : mul16ByNibbles State.reset.mul16 848#16 62464#16 = 52969472#32 := by decide
theorem test_xy2Opt_1000 : answerOf (.xy2Opt 1000#32 4359744#32) = some (.xy2 66524#32) := by decide
theorem test_xy2Opt_hh_cut : answerOf (.xy2Opt 0xFFFFFFFF#32 0xFFFFFFFF#32) = some (.xy2 0xFFFE0000#32) := by decide
theorem test_romrd_0 : answerOf (.romrd 0#5) = some (.word 65535#16) := by decide
theorem test_romrd_19 : answerOf (.romrd 19#5) = some (.word 91#16) := by decide
theorem test_range_last_interpolated : answerOf (.range 0x7FFFFFFF#32) = some (.bucket 30#5 2#16 1#16) := by decide
theorem test_range_clamp : answerOf (.range 0x80000000#32) = some (.bucket 31#5 1#16 1#16) := by decide
theorem test_frac_left : answerOf (.frac 1000#32 9#5) = some (.frac 62464#16) := by decide
theorem test_frac_right : answerOf (.frac 0xFFFF7FFF#32 31#5) = some (.frac 65534#16) := by decide
theorem test_interpRef_7 : answerOf (.interpRef 7#32 2#5 32768#16 23170#16) = some (.seed 25570#16) := by decide
theorem test_interpRef_clamp : answerOf (.interpRef 0xC0000000#32 31#5 1#16 1#16) = some (.seed 1#16) := by decide
theorem test_interpOpt_3 : answerOf (.interpOpt 3#32 1#5 46341#16 32768#16) = some (.seed 39555#16) := by decide
theorem test_interpOpt_98304 : answerOf (.interpOpt 98304#32 16#5 256#16 181#16) = some (.seed 219#16) := by decide
theorem test_newtonRef_wide_square : answerOf (.newtonRef 1#32 65536#32) = some (.estimate 65536#32) := by decide
theorem test_newtonRef_wraps : answerOf (.newtonRef 4#32 65535#32) = some (.estimate 2147418116#32) := by decide
theorem test_newtonOpt_ti_zero : answerOf (.newtonOpt 954444459#32 3#32) = some (.estimate 1#32) := by decide
theorem test_newtonOpt_cuts_term : answerOf (.newtonOpt 4#32 65535#32) = some (.estimate 98306#32) := by decide

/-! The whole operation (V7, V8.6), at the block's own port. -/

theorem test_rsqrt_ref_zero : served .ref (.rsqrt 0#32) = some (.y 0#32) := by decide
theorem test_rsqrt_opt_zero : served .opt (.rsqrt 0#32) = some (.y 0#32) := by decide
theorem test_rsqrt_ref_one : served .ref (.rsqrt 1#32) = some (.y 65536#32) := by decide
theorem test_rsqrt_opt_one : served .opt (.rsqrt 1#32) = some (.y 65536#32) := by decide
theorem test_rsqrt_ref_3 : answerOf (.rsqrtRef 3#32) = some (.y 37837#32) := by decide
theorem test_rsqrt_opt_3 : answerOf (.rsqrtOpt 3#32) = some (.y 37719#32) := by decide
theorem test_rsqrt_ref_before_rise : answerOf (.rsqrtRef 0x3FFFFFFF#32) = some (.y 1#32) := by decide
theorem test_rsqrt_opt_5353 : answerOf (.rsqrtOpt 5353#32) = some (.y 894#32) := by decide
theorem test_fetch_word_runs : responseOf (step (State.reset.withFetchWord 32 1000)) = some (.y 2072#32) := by decide
theorem test_reset_wins : responseOf (step { State.reset.present (.rsqrt 1000#32) with resetArrived := true }) = none := by decide

/-! Witnesses: states and operands that meet the hypotheses of the statements. -/

/-- An instance of variant `v` after reset, with the block's request `x` in flight. -/
def asked (v : Variant) (x : U32) : State := (State.resetOf v []).present (.rsqrt x)

theorem witness_request_in_flight (v : Variant) (x : U32) :
    (asked v x).resetArrived = false ∧ (asked v x).request = some (.rsqrt x) ∧ (asked v x).variant = v ∧
      HoldsTable (asked v x).table := ⟨rfl, rfl, rfl, holdsTable_nil⟩
theorem witness_idle : State.reset.resetArrived = false ∧ State.reset.request = none := ⟨rfl, rfl⟩
theorem witness_table_word : decodeTableWord 40 0x7D09 = some (.frac 1000#32 9#5) := by decide
theorem witness_not_block_port : ∀ w, Request.romrd 19#5 ≠ .rsqrt w := by simp
theorem witness_reset_event : ({ asked .ref 1000#32 with resetArrived := true } : State).resetArrived = true := rfl
theorem witness_zero_and_nonzero : (0#32 : U32) = 0#32 ∧ (1#32 : U32) ≠ 0#32 ∧ (0xFFFFFFFF#32 : U32) ≠ 0#32 := by decide
theorem witness_mulsa_narrow : (0xFFFFFFFF#64 : U64).toNat < 2 ^ 32 := by decide
theorem witness_table_valid : HoldsTable State.reset.table := holdsTable_nil
theorem witness_table_entry_zero_and_last : (0#5 : U5) = 0#5 ∧ (1#5 : U5) ≠ 0#5 ∧ (31#5 : U5) ≠ 0#5 := by decide
theorem witness_range_next : (30#5 : U5).toNat < 31 ∧ (31#5 : U5).toNat = (30#5 : U5).toNat + 1 ∧ (31#5 : U5).toNat = 31 := by decide
theorem witness_frac_left_boundary : 2 ^ (15#5 : U5).toNat ≤ (65535#32 : U32).toNat ∧ (65535#32 : U32).toNat < 2 ^ ((15#5 : U5).toNat + 1) ∧
    (15#5 : U5).toNat < 16 := by decide
theorem witness_frac_right_boundary : 2 ^ (16#5 : U5).toNat ≤ (65536#32 : U32).toNat ∧ (65536#32 : U32).toNat < 2 ^ ((16#5 : U5).toNat + 1) ∧
    16 ≤ (16#5 : U5).toNat := by decide
theorem witness_interp_contract : 2 ^ (31#5 : U5).toNat ≤ (0x80000000#32 : U32).toNat ∧
    (0x80000000#32 : U32).toNat < 2 ^ ((31#5 : U5).toNat + 1) ∧ (1#16 : U16).toNat ≤ (1#16 : U16).toNat := by decide
theorem witness_newtonOpt_contract : (65535#32 : U32).toNat < 2 ^ 16 ∧
    (0x30000 + 2 ^ 32 - 1 * (65535 * 65535) / 2 ^ 16 % 2 ^ 32) % 2 ^ 32 < 2 ^ 18 := by decide
/-- `term` just inside `2^18` (262143), at 0, and just outside on either side: `h = 256`, so that `xy2 = x`. -/
theorem witness_newtonOpt_term_boundary :
    (0x30000 + 2 ^ 32 - 0xFFFF0001 * (256 * 256) / 2 ^ 16 % 2 ^ 32) % 2 ^ 32 = 2 ^ 18 - 1 ∧
    (0x30000 + 2 ^ 32 - 0x30000 * (256 * 256) / 2 ^ 16 % 2 ^ 32) % 2 ^ 32 = 0 ∧
    (0x30000 + 2 ^ 32 - 0xFFFF0000 * (256 * 256) / 2 ^ 16 % 2 ^ 32) % 2 ^ 32 = 2 ^ 18 ∧
    (0x30000 + 2 ^ 32 - 0x30001 * (256 * 256) / 2 ^ 16 % 2 ^ 32) % 2 ^ 32 = 2 ^ 32 - 1 := by decide
theorem witness_both_variants : (State.resetOf .ref []).variant = .ref ∧ (State.resetOf .opt []).variant = .opt ∧
    HoldsTable (State.resetOf .ref []).table ∧ HoldsTable (State.resetOf .opt []).table :=
  ⟨rfl, rfl, holdsTable_nil, holdsTable_nil⟩
/-- A table that is not R33's, with a drop that is not negative at both ends of the bucket range. -/
theorem witness_other_table : (Memory.write [] 9#5 2900#16).wf = true ∧
    ((Memory.write [] 9#5 2900#16).read (9#5 + 1#5)).toNat ≤ ((Memory.write [] 9#5 2900#16).read 9#5).toNat ∧
    (1#16 : U16).toNat ≤ ((Memory.write [] 31#5 2#16).read 31#5).toNat := by decide
theorem witness_first_estimate :
    newtonRef 1#32 ((seedRef 0 [] 1#32).setWidth 32) = 65536#32 ∧ lowerHalf ((seedOpt 0 [] 1#32).setWidth 32) = 65535#16 := by decide
theorem witness_units_not_used : usesMulsa (.romrd 0#5) = false ∧ usesMul16 (.mulsa 1#64 1#32) = false := by decide
theorem witness_bucket_of_operand : 2 ^ 0 ≤ (1#32 : U32).toNat ∧ (1#32 : U32).toNat < 2 ^ (0 + 1) ∧
    2 ^ 31 ≤ (0xFFFFFFFF#32 : U32).toNat ∧ (0xFFFFFFFF#32 : U32).toNat < 2 ^ (31 + 1) := by decide
theorem witness_seed_ordered_operands : 0 < (1#32 : U32).toNat ∧ (1#32 : U32).toNat ≤ (0xFFFFFFFF#32 : U32).toNat := by decide
theorem witness_result : responseOf (exec (.rsqrtRef 1#32) (State.resetOf .ref [])) = some (.y 65536#32) ∧
    responseOf (exec (.rsqrtOpt 0#32) (State.resetOf .opt [])) = some (.y 0#32) := by decide
/-- An instance with a valid table, no reset event waiting and no request in flight, in either variant. -/
theorem witness_ready (v : Variant) : HoldsTable (State.resetOf v []).table ∧ (State.resetOf v []).resetArrived = false ∧
    (State.resetOf v []).request = none := ⟨holdsTable_nil, rfl, rfl⟩
theorem witness_sequence : [Request.rsqrt 1000#32, .mulsa 5#96, .rsqrt 0#32][2]? = some (.rsqrt 0#32) := by rfl
theorem witness_wellFormed : (Instr.interpOpt 7#32 2#5 32768#16 23170#16).wellFormed = true := by decide
theorem witness_invariant_step : Inv (asked .opt 3#32) ∧
    step (asked .opt 3#32) = .next ((asked .opt 3#32).answer (.y (rsqrtOpt 0 [] 3#32))).spendMul16 :=
  ⟨⟨rfl, holdsTable_nil, by simp [asked], by simp [asked], by simp [asked]⟩, rfl⟩
theorem witness_large_operand : 2 ^ 31 ≤ (0x80000000#32 : U32).toNat ∧ 65536 ≤ (65536#32 : U32).toNat := by decide

end Sys2Proof.Tests
end

namespace Sys2Proof.Proofs

open Sys2Proof Sys2Proof.Machine

/-! Range buckets: the bucket of an operand, and what CLZ32 and RANGE make of it (R56, R71 to R73). -/

/-- Every non-zero operand lies in a bucket. -/
theorem exists_bucket {x : U32} (hx : x ≠ 0#32) :
    ∃ e : U5, 2 ^ e.toNat ≤ x.toNat ∧ x.toNat < 2 ^ (e.toNat + 1) := by
  have hx0 : x.toNat ≠ 0 := fun h => hx (BitVec.eq_of_toNat_eq h)
  have hlog : x.toNat.log2 < 32 := (Nat.log2_lt hx0).2 x.isLt
  refine ⟨BitVec.ofNat 5 x.toNat.log2, ?_⟩
  rw [BitVec.toNat_ofNat, Nat.mod_eq_of_lt hlog]
  exact ⟨Nat.log2_self_le hx0, Nat.lt_log2_self⟩

/-- A bucket that holds a 32-bit operand has a 5-bit index. -/
theorem bucket_lt {x : U32} {e : Nat} (hlo : 2 ^ e ≤ x.toNat) : e < 32 :=
  (Nat.pow_lt_pow_iff_right (by omega : 1 < 2)).1 (hlo.trans_lt x.isLt)

theorem ne_zero_of_bucket {x : U32} {e : Nat} (hlo : 2 ^ e ≤ x.toNat) : x ≠ 0#32 := by
  rintro rfl
  exact absurd hlo (by simp)

theorem highestBit_of_bucket {v : U32} {e n : Nat} (hlo : 2 ^ e ≤ v.toNat) (hhi : v.toNat < 2 ^ (e + 1))
    (hn : e < n) : highestBit v n = some e := by
  induction n with
  | zero => omega
  | succ k ih =>
    obtain rfl | hk : e = k ∨ e < k := by omega
    · have hbit : v.getLsbD e = true := by
        rw [BitVec.getLsbD, Nat.testBit_eq_decide_div_mod_eq, decide_eq_true_eq]
        have hdiv : v.toNat / 2 ^ e = 1 := Nat.div_eq_of_lt_le (by omega) (by rw [Nat.pow_succ] at hhi; omega)
        omega
      simp [highestBit, hbit]
    · have hbit : v.getLsbD k = false :=
        Nat.testBit_lt_two_pow (hhi.trans_le (Nat.pow_le_pow_right (by omega) hk))
      simp [highestBit, hbit, ih hk]

/-- CLZ32 (R56) of an operand of the bucket `e`. -/
theorem clz32_of_bucket {v : U32} {e : Nat} (hlo : 2 ^ e ≤ v.toNat) (hhi : v.toNat < 2 ^ (e + 1)) :
    clz32 v = BitVec.ofNat 6 (31 - e) := by
  simp [clz32, highestBit_of_bucket hlo hhi (bucket_lt hlo)]

theorem bucketIndex_of_bucket {x : U32} {e : U5} (hlo : 2 ^ e.toNat ≤ x.toNat)
    (hhi : x.toNat < 2 ^ (e.toNat + 1)) : bucketIndex x = e := by
  apply BitVec.eq_of_toNat_eq
  have := e.isLt
  simp [bucketIndex, clz32_of_bucket hlo hhi]
  omega

/-- RANGE (R71 to R73) of an operand of the bucket `e`. -/
theorem range_of_bucket (k : Nat) (m : Memory) {x : U32} {e : U5} (hlo : 2 ^ e.toNat ≤ x.toNat)
    (hhi : x.toNat < 2 ^ (e.toNat + 1)) : range k m x = ⟨e, m.read e, nextWord m e⟩ := by
  simp [range, isZeroOperand, ne_zero_of_bucket hlo, bucketIndex_of_bucket hlo hhi]

/-- With the words of R33 the next word of a bucket is `nextNat`, the clamp included. -/
theorem nextWord_toNat {m : Memory} (hm : HoldsTable m) (e : U5) : (nextWord m e).toNat = nextNat e.toNat := by
  have := e.isLt
  by_cases he : e = 31#5
  · simp [nextWord, isLastBucket, clampNext, nextNat, he]
  · have hlt : e.toNat < 31 := by
      have : e.toNat ≠ 31 := fun h => he (BitVec.eq_of_toNat_eq h)
      omega
    have hsucc : (e + 1#5).toNat = e.toNat + 1 := by simp; omega
    simp [nextWord, isLastBucket, nextNat, he, hlt, hm (e + 1#5), hsucc]

/-- The drop of R33's table is not negative, in the last bucket either. -/
theorem nextNat_le_tableWord {e : Nat} (he : e < 32) : nextNat e ≤ (tableWord e).toNat := by
  by_cases hlt : e < 31
  · simpa [nextNat, hlt] using (tableWord_succ_lt hlt).le
  · simpa [nextNat, hlt] using one_le_tableWord he

/-! The multipliers as numbers (R61, R65, R68). -/

@[simp] theorem mulsa_toNat (a : U64) (b : U32) : (mulsa a b).toNat = a.toNat * b.toNat % 2 ^ 64 := by
  have hb : b.toNat % 2 ^ 64 = b.toNat := Nat.mod_eq_of_lt (by omega)
  simp [mulsa]

@[simp] theorem mul16_toNat (a b : U16) : (mul16 a b).toNat = a.toNat * b.toNat := by
  have hab : a.toNat * b.toNat < 2 ^ 16 * 2 ^ 16 := Nat.mul_lt_mul'' a.isLt b.isLt
  simp [mul16]
  omega

/-- The four partial products of R68 give bits 47:16 of the product. -/
theorem xy2Opt_toNat (x sq : U32) : (xy2Opt x sq).toNat = x.toNat * sq.toNat / 2 ^ 16 % 2 ^ 32 := by
  have hprod (a b c d : Nat) :
      (a * 2 ^ 16 + b) * (c * 2 ^ 16 + d) = (a * c) * 2 ^ 32 + (a * d) * 2 ^ 16 + (b * c) * 2 ^ 16 + b * d := by
    ring
  have hx : x.toNat = x.toNat / 2 ^ 16 * 2 ^ 16 + x.toNat % 2 ^ 16 := by omega
  have hsq : sq.toNat = sq.toNat / 2 ^ 16 * 2 ^ 16 + sq.toNat % 2 ^ 16 := by omega
  conv_rhs => rw [hx, hsq, hprod]
  simp only [xy2Opt, BitVec.toNat_add, BitVec.toNat_shiftLeft, BitVec.toNat_ushiftRight, mul16_toNat,
    upperHalf_toNat, lowerHalf_toNat, Nat.shiftLeft_eq, Nat.shiftRight_eq_div_pow]
  omega

/-! INTERP: both realisations give the interpolated seed (R77 to R82). -/

theorem bucketOffset_toNat {x : U32} {e : U5} (hlo : 2 ^ e.toNat ≤ x.toNat)
    (hhi : x.toNat < 2 ^ (e.toNat + 1)) : (bucketOffset x e).toNat = x.toNat - 2 ^ e.toNat := by
  have hx := x.isLt
  have hle : 2 ^ e.toNat ≤ 2 ^ 31 := Nat.pow_le_pow_right (by omega) (by omega)
  rw [Nat.pow_succ] at hhi
  have hone : (1#32 <<< e.toNat).toNat = 2 ^ e.toNat := by
    simp [Nat.shiftLeft_eq]
    omega
  simp only [bucketOffset, BitVec.toNat_setWidth, BitVec.toNat_sub, hone]
  omega

/-- FRAC (R77) in its bucket: both shift directions give the one quotient. -/
theorem frac_toNat (k : Nat) {x : U32} {e : U5} (hlo : 2 ^ e.toNat ≤ x.toNat)
    (hhi : x.toNat < 2 ^ (e.toNat + 1)) :
    (frac k x e).toNat = (x.toNat - 2 ^ e.toNat) * 2 ^ 16 / 2 ^ e.toNat := by
  have hoff := bucketOffset_toNat hlo hhi
  have hlt : x.toNat - 2 ^ e.toNat < 2 ^ e.toNat := by rw [Nat.pow_succ] at hhi; omega
  generalize x.toNat - 2 ^ e.toNat = r at hoff hlt
  by_cases he : 16 ≤ e.toNat
  · obtain ⟨d, hd⟩ : ∃ d, e.toNat = d + 16 := ⟨e.toNat - 16, by omega⟩
    have hq : r / 2 ^ d < 2 ^ 16 := Nat.div_lt_of_lt_mul (by rwa [hd, Nat.pow_add] at hlt)
    rw [hd, Nat.pow_add, Nat.mul_div_mul_right _ _ (by omega)]
    simpa [frac, (inBucket_iff x e).2 ⟨hlo, hhi⟩, fracShiftsRight, he, fracRightShift, hoff,
      Nat.shiftRight_eq_div_pow, hd] using hq
  · obtain ⟨d, hd⟩ : ∃ d, e.toNat + d = 16 := ⟨16 - e.toNat, by omega⟩
    have hshift : fracLeftShift e = d := by simp only [fracLeftShift]; omega
    have hr : r * 2 ^ d < 2 ^ 16 := by
      rw [← hd, Nat.pow_add]
      exact Nat.mul_lt_mul_of_pos_right hlt (by positivity)
    have hquot : r * 2 ^ 16 / 2 ^ e.toNat = r * 2 ^ d := by
      rw [← hd, Nat.pow_add, Nat.mul_left_comm, Nat.mul_div_cancel_left _ (by positivity)]
    rw [hquot]
    simp [frac, (inBucket_iff x e).2 ⟨hlo, hhi⟩, fracShiftsRight, he, hshift, hoff, Nat.shiftLeft_eq]
    omega

/-- The products of the two variants agree (R79), so the variants share their seed (R82). -/
theorem interpProductRef_eq_opt (delta f : U16) : interpProductRef delta f = interpProductOpt delta f := by
  apply BitVec.eq_of_toNat_eq
  have hlt : delta.toNat * f.toNat < 2 ^ 16 * 2 ^ 16 := Nat.mul_lt_mul'' delta.isLt f.isLt
  simp [interpProductRef, interpProductOpt]
  omega

theorem interpRef_eq_interpOpt (k : Nat) (x : U32) (e : U5) (base next : U16) :
    interpRef k x e base next = interpOpt k x e base next := by
  simp [interpRef, interpOpt, interpProductRef_eq_opt]

/-- INTERP (R82) inside its contract is the seed on plain integers. -/
theorem interpOpt_toNat (k : Nat) {x : U32} {e : U5} {base next : U16} (hlo : 2 ^ e.toNat ≤ x.toNat)
    (hhi : x.toNat < 2 ^ (e.toNat + 1)) (hdrop : next.toNat ≤ base.toNat) :
    (interpOpt k x e base next).toNat = seedNat x.toNat e.toNat base.toNat next.toNat := by
  have hbase := base.isLt
  have hfrac := frac_toNat k hlo hhi
  have hflt := (frac k x e).isLt
  have hdelta : (tableDrop k base next).toNat = base.toNat - next.toNat := by
    simp [tableDrop, hdrop]
    omega
  have hprod : (interpProductOpt (tableDrop k base next) (frac k x e)).toNat =
      (base.toNat - next.toNat) * (frac k x e).toNat := by
    rw [interpProductOpt, mul16_toNat, hdelta]
  have hsub : (base.toNat - next.toNat) * (frac k x e).toNat / 2 ^ 16 ≤ base.toNat - next.toNat :=
    Nat.div_le_of_le_mul (by rw [Nat.mul_comm]; exact Nat.mul_le_mul_right _ hflt.le)
  rw [interpOpt, seedOf, seedNat, ← hfrac, upperHalf_toNat, hprod, if_pos (by omega), BitVec.toNat_sub,
    upperHalf_toNat, hprod]
  omega

theorem seedOpt_toNat (k : Nat) {m : Memory} (hm : HoldsTable m) {x : U32} {e : U5}
    (hlo : 2 ^ e.toNat ≤ x.toNat) (hhi : x.toNat < 2 ^ (e.toNat + 1)) :
    (seedOpt k m x).toNat = tableSeed x.toNat e.toNat := by
  have hnext := nextWord_toNat hm e
  have hdrop : (nextWord m e).toNat ≤ (tableWord e.toNat).toNat := hnext ▸ nextNat_le_tableWord e.isLt
  simp only [seedOpt, range_of_bucket k m hlo hhi, hm e]
  rw [interpOpt_toNat k hlo hhi hdrop, hnext, tableSeed]

theorem seedRef_eq_seedOpt (k : Nat) (m : Memory) (x : U32) : seedRef k m x = seedOpt k m x :=
  interpRef_eq_interpOpt ..

/-! NEWTON: the two realisations as functions of integers (R85 to R87), and R85's exact formula. -/

theorem threeQ16_toNat : threeQ16.toNat = 0x30000 := rfl

theorem half17_toNat : half17.toNat = 0x10000 := rfl

theorem termOf_toNat (xy2 : U32) : (termOf xy2).toNat = (0x30000 + 2 ^ 32 - xy2.toNat) % 2 ^ 32 := by
  rw [termOf, BitVec.toNat_sub, threeQ16_toNat]
  omega

theorem xy2Ref_toNat (x y : U32) :
    (xy2Ref x y).toNat = y.toNat * y.toNat * x.toNat % 2 ^ 64 / 2 ^ 16 % 2 ^ 32 := by
  simp [xy2Ref]

theorem roundRef_toNat (y term : U32) :
    (roundRef y term).toNat = (y.toNat * term.toNat + 0x10000) % 2 ^ 64 / 2 ^ 17 % 2 ^ 32 := by
  have hy : y.toNat % 2 ^ 64 = y.toNat := Nat.mod_eq_of_lt (by omega)
  rw [roundRef, bits48to17_toNat, BitVec.toNat_add, half17_toNat, mulsa_toNat, BitVec.toNat_setWidth, hy,
    Nat.mod_add_mod]

/-- NEWTON.REF (R86) is the value function of R85 for all operands. -/
theorem newtonRef_toNat (x y : U32) : (newtonRef x y).toNat = newtonNat x.toNat y.toNat := by
  rw [newtonRef, roundRef_toNat, termOf_toNat, xy2Ref_toNat, newtonNat]

theorem yTimesInt_toNat (y16 : U16) (ti : BitVec 2) : (yTimesInt y16 ti).toNat = y16.toNat * ti.toNat := by
  have := y16.isLt
  obtain rfl | rfl | rfl | rfl : ti = 0#2 ∨ ti = 1#2 ∨ ti = 2#2 ∨ ti = 3#2 := by
    revert ti
    decide
  · simp [yTimesInt]
  · simp [yTimesInt]
    omega
  · simp [yTimesInt, Nat.shiftLeft_eq]
    omega
  · simp [yTimesInt, Nat.shiftLeft_eq]
    omega

theorem roundOpt_toNat (y16 : U16) (term : U32) :
    (roundOpt y16 term).toNat =
      (y16.toNat * (term.toNat / 2 ^ 16 % 4) + 1 + y16.toNat * (term.toNat % 2 ^ 16) / 2 ^ 16) / 2 := by
  have hint := (yTimesInt y16 (termInt term)).isLt
  have hfrac := (mul16 y16 (lowerHalf term)).isLt
  rw [yTimesInt_toNat, termInt_toNat] at hint
  rw [mul16_toNat, lowerHalf_toNat] at hfrac
  simp only [roundOpt, BitVec.toNat_ushiftRight, BitVec.toNat_add, BitVec.toNat_setWidth, yTimesInt_toNat,
    termInt_toNat, mul16_toNat, lowerHalf_toNat, oneAfter16, BitVec.toNat_ofNat, Nat.shiftRight_eq_div_pow]
  omega

/-- R87's pseudocode on integers, with the ignored bits of `y` and `term` cut (R45, D11). -/
theorem newtonOpt_toNat (x y : U32) {h term : Nat} (hh : h = y.toNat % 2 ^ 16)
    (hterm : term = (0x30000 + 2 ^ 32 - x.toNat * (h * h) / 2 ^ 16 % 2 ^ 32) % 2 ^ 32) :
    (newtonOpt x y).toNat = (h * (term / 2 ^ 16 % 4) + 1 + h * (term % 2 ^ 16) / 2 ^ 16) / 2 := by
  simp only [newtonOpt, roundOpt_toNat, termOf_toNat, xy2Opt_toNat, mul16_toNat, lowerHalf_toNat, ← hh, ← hterm]

/-- Recombining `term`'s two parts after the shift by 16 rounds as R85 does (R87, R88). -/
theorem split_round_eq {h term : Nat} (hterm : term < 2 ^ 18) :
    (h * (term / 2 ^ 16 % 4) + 1 + h * (term % 2 ^ 16) / 2 ^ 16) / 2 = (h * term + 65536) / 131072 := by
  have hint : term / 2 ^ 16 % 4 = term / 2 ^ 16 := by omega
  have hprod : h * term = h * (term / 2 ^ 16) * 2 ^ 16 + h * (term % 2 ^ 16) := by
    conv_lhs => rw [← Nat.div_add_mod' term (2 ^ 16), Nat.mul_add, ← Nat.mul_assoc]
  rw [hint, hprod]
  omega

/-- While `xy2` is at most three, R85's step has no wrap and is its exact formula. -/
theorem newtonNat_eq_closedStep {x y : Nat} (hx : 0 < x) (hxy : x * y ^ 2 / 65536 ≤ 196608) :
    newtonNat x y = closedStep x y := by
  have hlt : x * y ^ 2 < 2 ^ 34 := by omega
  have hy : y < 2 ^ 17 := by nlinarith
  have hsq : y * y * x = x * y ^ 2 := by ring
  have hround : y * (196608 - x * y ^ 2 / 65536) ≤ 2 ^ 17 * 196608 := Nat.mul_le_mul hy.le (by omega)
  have hterm : (0x30000 + 2 ^ 32 - x * y ^ 2 % 2 ^ 64 / 2 ^ 16 % 2 ^ 32) % 2 ^ 32 = 196608 - x * y ^ 2 / 65536 := by
    omega
  simp only [newtonNat, hsq, hterm, closedStep]
  omega

theorem newtonRef_toNat_eq_closedStep {x y : U32} (hx : x ≠ 0#32)
    (hxy : x.toNat * y.toNat ^ 2 / 65536 ≤ 196608) : (newtonRef x y).toNat = closedStep x.toNat y.toNat := by
  have hpos : 0 < x.toNat := Nat.pos_of_ne_zero fun h => hx (BitVec.eq_of_toNat_eq h)
  rw [newtonRef_toNat, newtonNat_eq_closedStep hpos hxy]

theorem newtonOpt_toNat_eq_closedStep {x y : U32} (hy : y.toNat < 2 ^ 16)
    (hxy : x.toNat * y.toNat ^ 2 / 65536 ≤ 196608) : (newtonOpt x y).toNat = closedStep x.toNat y.toNat := by
  have hterm : 196608 - x.toNat * y.toNat ^ 2 / 65536 =
      (0x30000 + 2 ^ 32 - x.toNat * (y.toNat * y.toNat) / 2 ^ 16 % 2 ^ 32) % 2 ^ 32 := by
    rw [← pow_two]
    omega
  rw [newtonOpt_toNat x y (Nat.mod_eq_of_lt hy).symm hterm, split_round_eq (by omega), closedStep]

/-! The estimates of the schedules keep `xy2` at most three, so that `term` never borrows (R89, R92). -/

theorem mul_sq_le_of_add_eq {N v w : Nat} (h : v + w = 3 * N) : v * w ^ 2 ≤ 4 * N ^ 3 := by
  zify at h ⊢
  have hv : (v : ℤ) = 3 * N - w := by linarith
  rw [hv]
  nlinarith [mul_nonneg (sq_nonneg ((w : ℤ) - 2 * N)) (by positivity : (0 : ℤ) ≤ w + N)]

/-- The rounding up of one step, and what `xy2` loses by truncation, add at most 1 to the exact value of the step (R88). -/
theorem closedStep_sub_one_le {x y : Nat} (hy : y ≤ 65536) (hxy : x * y ^ 2 ≤ 3 * 2 ^ 32) :
    2 ^ 33 * (closedStep x y - 1) ≤ y * (3 * 2 ^ 32 - x * y ^ 2) := by
  have htrunc : 65536 * (196608 - x * y ^ 2 / 65536) ≤ 3 * 2 ^ 32 - x * y ^ 2 + 65536 := by omega
  have hscaled := Nat.mul_le_mul_left y htrunc
  rw [Nat.mul_left_comm, Nat.mul_add] at hscaled
  simp only [closedStep]
  omega

/-- One exact step from an estimate of at most 65536 ends at most one above the true value `65536 / sqrt x` (R94). With `v = x * y^2`
and `N = 2^32` this is `v * (3 * N - v)^2 ≤ 4 * N^3`. -/
theorem closedStep_sub_one_bound {x y : Nat} (hy : y ≤ 65536) (hxy : x * y ^ 2 ≤ 3 * 2 ^ 32) :
    x * (closedStep x y - 1) ^ 2 ≤ 2 ^ 32 := by
  have hchain : 2 ^ 66 * (x * (closedStep x y - 1) ^ 2) ≤ 2 ^ 66 * 2 ^ 32 :=
    calc 2 ^ 66 * (x * (closedStep x y - 1) ^ 2)
      _ = x * (2 ^ 33 * (closedStep x y - 1)) ^ 2 := by ring
      _ ≤ x * (y * (3 * 2 ^ 32 - x * y ^ 2)) ^ 2 :=
          Nat.mul_le_mul_left x (Nat.pow_le_pow_left (closedStep_sub_one_le hy hxy) 2)
      _ = x * y ^ 2 * (3 * 2 ^ 32 - x * y ^ 2) ^ 2 := by ring
      _ ≤ 4 * (2 ^ 32) ^ 3 := mul_sq_le_of_add_eq (by omega)
      _ = 2 ^ 66 * 2 ^ 32 := by norm_num
  exact Nat.le_of_mul_le_mul_left hchain (by positivity)

/-- An estimate at most one above the true value keeps `xy2` at most three, for operands below `2^31`: `3037000500` is the square root of
`2^63`, rounded up. -/
theorem xy2_le_three_of_sub_one_bound {x y : Nat} (hx : x < 2 ^ 31) (hy : x * (y - 1) ^ 2 ≤ 2 ^ 32) :
    x * y ^ 2 / 65536 ≤ 196608 := by
  have hroot : x * (y - 1) < 3037000500 := by
    apply lt_of_pow_lt_pow_left₀ 2 (by omega)
    calc (x * (y - 1)) ^ 2
      _ = x * (x * (y - 1) ^ 2) := by ring
      _ ≤ 2 ^ 31 * 2 ^ 32 := Nat.mul_le_mul hx.le hy
      _ < 3037000500 ^ 2 := by norm_num
  have hsq : x * y ^ 2 ≤ x * (y - 1) ^ 2 + 2 * (x * (y - 1)) + x :=
    calc x * y ^ 2
      _ ≤ x * (y - 1 + 1) ^ 2 := Nat.mul_le_mul_left x (Nat.pow_le_pow_left (by omega) 2)
      _ = x * (y - 1) ^ 2 + 2 * (x * (y - 1)) + x := by ring
  omega

theorem tableSeed_le (x e : Nat) : tableSeed x e ≤ (tableWord e).toNat := Nat.sub_le ..

theorem tableWord_sq_bound {e : Nat} (he : e < 32) : 2 ^ (e + 1) * (tableWord e).toNat ^ 2 ≤ 3 * 2 ^ 32 := by
  revert e
  decide

theorem tableSeed_bound {x e : Nat} (he : e < 32) (hhi : x < 2 ^ (e + 1)) :
    x * tableSeed x e ^ 2 ≤ 3 * 2 ^ 32 :=
  calc x * tableSeed x e ^ 2
    _ ≤ 2 ^ (e + 1) * (tableWord e).toNat ^ 2 :=
        Nat.mul_le_mul hhi.le (Nat.pow_le_pow_left (tableSeed_le x e) 2)
    _ ≤ 3 * 2 ^ 32 := tableWord_sq_bound he

/-- In the last bucket the table drop is 0 and the seed is 1 (R81 a). -/
theorem tableSeed_last (x : Nat) : tableSeed x 31 = 1 := by
  have h : (tableWord 31).toNat = 1 := rfl
  simp [tableSeed, seedNat, nextNat, h]

/-- The estimate 1 is a fixed point from 65536 on (R93). -/
theorem closedStep_one {x : Nat} (hlo : 65536 ≤ x) (hhi : x < 2 ^ 32) : closedStep x 1 = 1 := by
  simp only [closedStep]
  omega

/-- The estimate after one step from the seed. Below `2^31` it is within one of the true value; from there on it is 1. -/
theorem closedStep_tableSeed_bound {x e : Nat} (he : e < 32) (hlo : 2 ^ e ≤ x) (hhi : x < 2 ^ (e + 1)) :
    x * closedStep x (tableSeed x e) ^ 2 / 65536 ≤ 196608 := by
  obtain rfl | he31 : e = 31 ∨ e < 31 := by omega
  · rw [tableSeed_last, closedStep_one (by omega) (by omega)]
    omega
  · have hx : x < 2 ^ 31 := hhi.trans_le (Nat.pow_le_pow_right (by omega) he31)
    have hseed : tableSeed x e ≤ 65536 := (tableSeed_le x e).trans (tableWord e).isLt.le
    exact xy2_le_three_of_sub_one_bound hx (closedStep_sub_one_bound hseed (tableSeed_bound he hhi))

/-! RSQRT: the exact formula iterated from the seed (R85, R91, R102, R103), and its independence of the free values. -/

@[simp] theorem rsqrt_zero (v : Variant) (k : Nat) (m : Memory) : rsqrt v k m 0#32 = 0#32 := by
  cases v <;> rfl

theorem rsqrtRef_of_ne_zero (k : Nat) (m : Memory) {x : U32} (hx : x ≠ 0#32) :
    rsqrtRef k m x = newtonRef x (newtonRef x ((seedOpt k m x).setWidth 32)) := by
  rw [rsqrtRef, if_neg (mt (isZeroOperand_iff x).1 hx), seedRef_eq_seedOpt]

theorem rsqrtOpt_of_ne_zero (k : Nat) (m : Memory) {x : U32} (hx : x ≠ 0#32) :
    rsqrtOpt k m x = newtonOpt x ((seedOpt k m x).setWidth 32) := by
  rw [rsqrtOpt, if_neg (mt (isZeroOperand_iff x).1 hx)]

/-- The seed at NEWTON's port, zero-extended (R102, R103). -/
theorem setWidth_seedOpt_toNat (k : Nat) {m : Memory} (hm : HoldsTable m) {x : U32} {e : U5}
    (hlo : 2 ^ e.toNat ≤ x.toNat) (hhi : x.toNat < 2 ^ (e.toNat + 1)) :
    ((seedOpt k m x).setWidth 32).toNat = tableSeed x.toNat e.toNat := by
  rw [BitVec.toNat_setWidth, Nat.mod_eq_of_lt (by omega), seedOpt_toNat k hm hlo hhi]

theorem rsqrt_toNat_of_bucket (v : Variant) (k : Nat) {m : Memory} (hm : HoldsTable m) {x : U32} {e : U5}
    (hlo : 2 ^ e.toNat ≤ x.toNat) (hhi : x.toNat < 2 ^ (e.toNat + 1)) :
    (rsqrt v k m x).toNat = (closedStep x.toNat)^[nsteps v] (tableSeed x.toNat e.toNat) := by
  have hx := ne_zero_of_bucket hlo
  have hseed := setWidth_seedOpt_toNat k hm hlo hhi
  have hbound := tableSeed_bound e.isLt hhi
  have hlt : tableSeed x.toNat e.toNat < 2 ^ 16 := (tableSeed_le ..).trans_lt (tableWord _).isLt
  cases v with
  | ref =>
    have hfirst : (newtonRef x ((seedOpt k m x).setWidth 32)).toNat =
        closedStep x.toNat (tableSeed x.toNat e.toNat) := by
      rw [newtonRef_toNat_eq_closedStep hx (by rw [hseed]; omega), hseed]
    have hsecond := closedStep_tableSeed_bound e.isLt hlo hhi
    rw [rsqrt, rsqrtRef_of_ne_zero k m hx, newtonRef_toNat_eq_closedStep hx (by rwa [hfirst]), hfirst, nsteps,
      Function.iterate_succ_apply', Function.iterate_one]
  | opt =>
    rw [rsqrt, rsqrtOpt_of_ne_zero k m hx, newtonOpt_toNat_eq_closedStep (by omega) (by rw [hseed]; omega), hseed,
      nsteps, Function.iterate_one]

/-- With a valid table RSQRT(x) uses none of the values the spec leaves open (R21). -/
theorem rsqrt_openCount_irrelevant (v : Variant) (k l : Nat) {m : Memory} (hm : HoldsTable m) (x : U32) :
    rsqrt v k m x = rsqrt v l m x := by
  by_cases hx : x = 0#32
  · simp [hx]
  · obtain ⟨e, hlo, hhi⟩ := exists_bucket hx
    apply BitVec.eq_of_toNat_eq
    rw [rsqrt_toNat_of_bucket v k hm hlo hhi, rsqrt_toNat_of_bucket v l hm hlo hhi]

/-! Sequences of the block's requests (R21, R109). -/

/-- A presented request is decoded by VARIANT and executed (R131). -/
theorem step_present {s : State} (hs : s.resetArrived = false) (r : Request) :
    step (s.present r) = exec (decode s.variant r) (s.present r) := by
  simp [step, hs]

/-- One request of the block: its response, and what the next request meets. -/
theorem step_present_rsqrt {s : State} (hs : s.resetArrived = false) (x : U32) :
    ∃ t, step (s.present (.rsqrt x)) = .next t ∧
      t.response = some (.y (rsqrt s.variant s.openCount s.table x)) ∧
      t.variant = s.variant ∧ t.table = s.table ∧ t.resetArrived = false := by
  rw [step_present hs]
  cases hv : s.variant with
  | ref => exact ⟨_, exec_rsqrtRef .., by simp [rsqrt, hv, hs]⟩
  | opt => exact ⟨_, exec_rsqrtOpt .., by simp [rsqrt, hv, hs]⟩

theorem serve_cons_of_step {s t : State} {r : Request} (h : step (s.present r) = .next t) (rs : List Request) :
    serve s (r :: rs) = t.response :: serve t rs := by
  simp [serve, h]

theorem serve_map_rsqrt {s : State} (xs : List U32) (hm : HoldsTable s.table) (hs : s.resetArrived = false) :
    serve s (xs.map Request.rsqrt) = xs.map fun x => some (Response.y (rsqrt s.variant 0 s.table x)) := by
  induction xs generalizing s with
  | nil => rfl
  | cons x xs ih =>
    obtain ⟨t, hstep, hresp, hvar, htab, hreset⟩ := step_present_rsqrt hs x
    rw [List.map_cons, serve_cons_of_step hstep, hresp, ih (htab ▸ hm) hreset, hvar, htab,
      rsqrt_openCount_irrelevant s.variant s.openCount 0 hm, List.map_cons]

/-- With no request and no reset event a step delivers no response (R109). -/
theorem step_of_idle {s : State} (hs : s.resetArrived = false) (hr : s.request = none) :
    step s = .next s.idle := by
  simp [step, hs, State.fetch, hr]

/-- Settles O32: by induction over the sequence, every step keeping VARIANT and TABLE; RSQRT(x) is the exact formula because no
intermediate of the one or two steps wraps; an idle step shows no response. -/
theorem responsesIndependentOfHistory : Obligations.ResponsesIndependentOfHistory := by
  intro s xs hm hs hr
  refine ⟨serve_map_rsqrt xs hm hs, fun x k => rsqrt_openCount_irrelevant s.variant k 0 hm x,
    rsqrt_zero .., fun x e hlo hhi => ?_, s.idle, step_of_idle hs hr, rfl⟩
  obtain ⟨i, rfl⟩ : ∃ i : U5, i.toNat = e := ⟨BitVec.ofNat 5 e, by simpa using bucket_lt hlo⟩
  exact rsqrt_toNat_of_bucket s.variant 0 hm hlo hhi

end Sys2Proof.Proofs

namespace Sys2Proof.Proofs

open Sys2Proof Sys2Proof.Machine

/-! The frame of an operation, and the table read (R30, R33). -/

/-- The words read follow from TABLE, so keeping VARIANT and TABLE keeps the block. -/
theorem keepsBlock_of_eq {s t : State} (hvar : t.variant = s.variant) (htab : t.table = s.table) : KeepsBlock s t :=
  ⟨hvar, htab, fun _ => by rw [htab]⟩

/-- R33 rounds `65536 / sqrt (2^i)` to the nearest integer: twice the word is within 1 of twice that value, squared to stay among
integers. Entry 0 is saturated (D3) and is no rounded value. -/
theorem tableWord_rounds {i : Nat} (hlt : i < 32) (hpos : 0 < i) :
    (2 * (tableWord i).toNat - 1) ^ 2 ≤ 2 ^ (34 - i) ∧ 2 ^ (34 - i) < (2 * (tableWord i).toNat + 1) ^ 2 := by
  revert i
  decide

/-- The word read from a table that holds R33's words, at any index but the saturated one. -/
theorem read_rounds {m : Memory} (hm : HoldsTable m) {i : U5} (hi : i ≠ 0#5) :
    (2 * (m.read i).toNat - 1) ^ 2 ≤ 2 ^ (34 - i.toNat) ∧ 2 ^ (34 - i.toNat) < (2 * (m.read i).toNat + 1) ^ 2 := by
  have hpos : 0 < i.toNat := Nat.pos_of_ne_zero fun h => hi (BitVec.eq_of_toNat_eq h)
  rw [hm i]
  exact tableWord_rounds i.isLt hpos

/-- Entry 0 is saturated to the largest 16-bit word (R33, D3). -/
theorem read_zero_toNat {m : Memory} (hm : HoldsTable m) : (m.read 0#5).toNat = 65535 := by
  rw [hm 0#5]
  rfl

/-- Settles O12: the answer is the word read and nothing else changes; R33's 31 rounded words meet the rounding bounds one by
one. -/
theorem romReadAnswersTableWord : Obligations.RomReadAnswersTableWord := by
  intro i s
  refine ⟨s.answer (.word (s.table.read i)), s.table.read i, exec_romrd i s, State.answer_request .., State.answer_response ..,
    keepsBlock_of_eq (State.answer_variant ..) (State.answer_table ..), fun _ => rfl, rfl, fun hm => ⟨?_, read_rounds hm⟩⟩
  rintro rfl
  exact read_zero_toNat hm

end Sys2Proof.Proofs

namespace Sys2Proof.Proofs

open Sys2Proof Sys2Proof.Machine

/-! CLZ32: the count of an operand by its bucket (R56), and the halving structure of R57. -/

/-- The bucket's index is the highest set bit: it is set. -/
theorem getLsbD_of_bucket {v : U32} {e : Nat} (hlo : 2 ^ e ≤ v.toNat) (hhi : v.toNat < 2 ^ (e + 1)) :
    v.getLsbD e = true :=
  Nat.testBit_of_two_pow_le_and_two_pow_add_one_gt hlo hhi

/-- The bucket's index is the highest set bit: none is set above it. -/
theorem getLsbD_above_bucket {v : U32} {e j : Nat} (hhi : v.toNat < 2 ^ (e + 1)) (hj : e < j) :
    v.getLsbD j = false :=
  Nat.testBit_lt_two_pow (hhi.trans_le (Nat.pow_le_pow_right (by omega) hj))

theorem clz32_zero : clz32 0#32 = 32#6 := rfl

theorem clz32_toNat_of_bucket {v : U32} {e : Nat} (hlo : 2 ^ e ≤ v.toNat) (hhi : v.toNat < 2 ^ (e + 1)) :
    (clz32 v).toNat = 31 - e := by
  rw [clz32_of_bucket hlo hhi, BitVec.toNat_ofNat, Nat.mod_eq_of_lt (by omega)]

theorem ushiftRight_eq_zero_iff {w : U32} {c : Nat} : w >>> c = 0#32 ↔ w.toNat < 2 ^ c := by
  simp [← BitVec.toNat_inj, Nat.shiftRight_eq_div_pow]

/-- A test that finds no 1 at or above index `c` changes nothing. -/
theorem clzTest_of_lt {n : U6} {w : U32} {c : Nat} (hw : w.toNat < 2 ^ c) : clzTest (n, w) c = (n, w) := by
  simp [clzTest, ushiftRight_eq_zero_iff, hw]

/-- A test that finds a 1 at or above index `c` takes the chunk off the count and keeps the upper part. -/
theorem clzTest_of_le {n : U6} {w : U32} {c : Nat} (hw : 2 ^ c ≤ w.toNat) :
    clzTest (n, w) c = (n - BitVec.ofNat 6 c, w >>> c) := by
  simp [clzTest, ushiftRight_eq_zero_iff, hw.not_gt]

/-- The loop invariant of R57: the highest set bit of the remaining field stands below `m`, and the count is that bit's index above the
final count `d`. -/
def HalvingInv (m : Nat) (d : U6) (nw : U6 × U32) : Prop :=
  ∃ e < m, 2 ^ e ≤ nw.2.toNat ∧ nw.2.toNat < 2 ^ (e + 1) ∧ nw.1 = d + BitVec.ofNat 6 e

/-- A test of chunk size `c` halves the range of the highest set bit. -/
theorem halvingInv_clzTest {c : Nat} {d : U6} {nw : U6 × U32} (h : HalvingInv (c + c) d nw) :
    HalvingInv c d (clzTest nw c) := by
  obtain ⟨n, w⟩ := nw
  obtain ⟨e, he, hlo, hhi, rfl⟩ := h
  dsimp only at hlo hhi
  by_cases hec : e < c
  · have hw : w.toNat < 2 ^ c := hhi.trans_le (Nat.pow_le_pow_right (by omega) hec)
    rw [clzTest_of_lt hw]
    exact ⟨e, hec, hlo, hhi, rfl⟩
  · obtain ⟨k, rfl⟩ : ∃ k, e = k + c := ⟨e - c, by omega⟩
    rw [Nat.add_right_comm] at hhi
    rw [clzTest_of_le ((Nat.pow_le_pow_right (by omega) (by omega)).trans hlo)]
    refine ⟨k, by omega, ?_, ?_, ?_⟩
    · rw [BitVec.toNat_ushiftRight, Nat.shiftRight_eq_div_pow, Nat.le_div_iff_mul_le (by positivity), ← Nat.pow_add]
      exact hlo
    · rw [BitVec.toNat_ushiftRight, Nat.shiftRight_eq_div_pow, Nat.div_lt_iff_lt_mul (by positivity), ← Nat.pow_add]
      exact hhi
    · rw [BitVec.ofNat_add, ← BitVec.add_assoc, BitVec.add_sub_cancel]

/-- The invariant at its end: the field is its one remaining bit and the count is final. -/
theorem eq_of_halvingInv_one {d : U6} {nw : U6 × U32} (h : HalvingInv 1 d nw) : nw = (d, 1#32) := by
  obtain ⟨e, he, hlo, hhi, hn⟩ := h
  obtain rfl : e = 0 := by omega
  refine Prod.ext ?_ (BitVec.eq_of_toNat_eq ?_)
  · simpa using hn
  · simp
    omega

/-- The five tests of R57 on a non-zero operand. -/
theorem foldl_clzTest_of_bucket {v : U32} {e : Nat} (hlo : 2 ^ e ≤ v.toNat) (hhi : v.toNat < 2 ^ (e + 1)) :
    clzChunks.foldl clzTest (32#6, v) = (32#6 - BitVec.ofNat 6 e, 1#32) := by
  have hstart : HalvingInv (16 + 16) (32#6 - BitVec.ofNat 6 e) (32#6, v) :=
    ⟨e, bucket_lt hlo, hlo, hhi, (BitVec.sub_add_cancel ..).symm⟩
  have h16 : HalvingInv (8 + 8) _ _ := halvingInv_clzTest hstart
  have h8 : HalvingInv (4 + 4) _ _ := halvingInv_clzTest h16
  have h4 : HalvingInv (2 + 2) _ _ := halvingInv_clzTest h8
  have h2 : HalvingInv (1 + 1) _ _ := halvingInv_clzTest h4
  exact eq_of_halvingInv_one (halvingInv_clzTest h2)

/-- No test finds a 1 in the zero operand. -/
theorem foldl_clzTest_zero : clzChunks.foldl clzTest (32#6, 0#32) = (32#6, 0#32) := rfl

/-- Settles O21: each test halves the range of the highest set bit and keeps the count that bit's index above the final one. -/
theorem clzHalvingMeetsContract : Obligations.ClzHalvingMeetsContract := by
  intro v
  by_cases hv : v = 0#32
  · subst hv
    exact ⟨congrArg Prod.snd foldl_clzTest_zero, rfl⟩
  · obtain ⟨e, hlo, hhi⟩ := exists_bucket hv
    have htests := foldl_clzTest_of_bucket hlo hhi
    refine ⟨by rw [htests, if_neg hv], ?_⟩
    rw [clz32ByHalving, htests, clz32_of_bucket hlo hhi]
    apply BitVec.eq_of_toNat_eq
    simp
    omega

/-- Settles O8: a non-zero operand's bucket is the index of its highest set bit, and the count is 31 minus it. -/
theorem clzCountsLeadingZeros : Obligations.ClzCountsLeadingZeros := by
  intro v s
  refine ⟨s.answer (.count (clz32 v)), clz32 v, exec_clz32 v s, State.answer_request .., State.answer_response ..,
    keepsBlock_of_eq (State.answer_variant ..) (State.answer_table ..), fun _ => rfl, ?_, fun hv => ?_⟩
  · rintro rfl
    rw [clz32_zero]
    rfl
  · obtain ⟨e, hlo, hhi⟩ := exists_bucket hv
    have hcount := clz32_toNat_of_bucket hlo hhi
    have hindex : 31 - (clz32 v).toNat = e.toNat := by omega
    have hwidth : 32 - (clz32 v).toNat = e.toNat + 1 := by omega
    rw [hindex, hwidth]
    exact ⟨by omega, getLsbD_of_bucket hlo hhi, fun j => getLsbD_above_bucket hhi, hlo, hhi⟩

end Sys2Proof.Proofs

namespace Sys2Proof.Proofs

open Sys2Proof Sys2Proof.Machine

/-! The multipliers' operations (R61, R65, R68): the frame of an operation that may use one, and the operands cut from a request. -/

/-- What an operation that may use MULSA answers and leaves unchanged (R17, U8). -/
theorem answer_spendMulsa_effect (s : State) (r : Response) :
    (s.answer r).spendMulsa.request = none ∧ (s.answer r).spendMulsa.response = some r ∧
      KeepsBlock s (s.answer r).spendMulsa :=
  ⟨by simp, by simp, keepsBlock_of_eq (by simp) (by simp)⟩

/-- What an operation that may use MUL16 answers and leaves unchanged (R17, U8). -/
theorem answer_spendMul16_effect (s : State) (r : Response) :
    (s.answer r).spendMul16.request = none ∧ (s.answer r).spendMul16.response = some r ∧
      KeepsBlock s (s.answer r).spendMul16 :=
  ⟨by simp, by simp, keepsBlock_of_eq (by simp) (by simp)⟩

theorem decode_mulsa_append (q : Variant) (a : U64) (b : U32) : decode q (.mulsa (a ++ b)) = .mulsa a b :=
  congrArg₂ Instr.mulsa (upper_of_append a b) (lower_of_append a b)

theorem decode_mul16_append (q : Variant) (a b : U16) : decode q (.mul16 (a ++ b)) = .mul16 a b :=
  congrArg₂ Instr.mul16 (upper_of_append a b) (lower_of_append a b)

theorem decode_xy2Opt_append (q : Variant) (x sq : U32) : decode q (.xy2Opt (x ++ sq)) = .xy2Opt x sq :=
  congrArg₂ Instr.xy2Opt (upper_of_append x sq) (lower_of_append x sq)

/-- A product of a 32-bit multiplicand fits MULSA's 64 bits, so nothing is cut (R61). -/
theorem mulsa_toNat_of_lt {a : U64} {b : U32} (ha : a.toNat < 2 ^ 32) : (mulsa a b).toNat = a.toNat * b.toNat := by
  have hfits : a.toNat * b.toNat < 2 ^ 64 := Nat.mul_lt_mul'' (c := 2 ^ 32) (d := 2 ^ 32) ha b.isLt
  rw [mulsa_toNat, Nat.mod_eq_of_lt hfits]

/-- Settles O9: MULSA is the product cut to 64 bits, and a 32-bit multiplicand's product is not cut. -/
theorem mulsaAnswersProduct : Obligations.MulsaAnswersProduct := by
  intro a b s _
  obtain ⟨hreq, hresp, hkeeps⟩ := answer_spendMulsa_effect s (.prod64 (mulsa a b))
  exact ⟨_, mulsa a b, exec_mulsa a b s, hreq, hresp, hkeeps, fun q => decode_mulsa_append q a b, mulsa_toNat a b,
    mulsa_toNat_of_lt⟩

/-- Settles O10: two 16-bit operands' product fits MUL16's 32 bits. -/
theorem mulSixteenAnswersExactProduct : Obligations.MulSixteenAnswersExactProduct := by
  intro a b s _
  obtain ⟨hreq, hresp, hkeeps⟩ := answer_spendMul16_effect s (.prod32 (mul16 a b))
  exact ⟨_, mul16 a b, exec_mul16 a b s, hreq, hresp, hkeeps, fun q => decode_mul16_append q a b,
    mul16_toNat a b⟩

/-- Settles O11: the four half products, each at its place, sum to the product shifted right by 16; cutting `ll` before the sum
loses no carry, because the other three have no bit below its cut. -/
theorem xyTwoAnswersShiftedProduct : Obligations.XyTwoAnswersShiftedProduct := by
  intro x sq s _
  obtain ⟨hreq, hresp, hkeeps⟩ := answer_spendMul16_effect s (.xy2 (xy2Opt x sq))
  exact ⟨_, xy2Opt x sq, exec_xy2Opt x sq s, hreq, hresp, hkeeps, fun q => decode_xy2Opt_append q x sq,
    xy2Opt_toNat x sq⟩

/-! The nibble structure of R66: a partial product, and the sum of the partial products so far. -/

theorem nibble_toNat (b : U16) (k : Nat) : (nibble b k).toNat = b.toNat / 2 ^ (4 * k) % 2 ^ 4 := by
  rw [nibble, BitVec.extractLsb'_toNat, Nat.shiftRight_eq_div_pow]

theorem nibble_eq_sum_bits (n : BitVec 4) :
    n.toNat = (n.getLsbD 0).toNat * 2 ^ 0 + (n.getLsbD 1).toNat * 2 ^ 1 + (n.getLsbD 2).toNat * 2 ^ 2 +
      (n.getLsbD 3).toNat * 2 ^ 3 := by
  revert n
  decide

/-- One shifted add of R66: no bit of the 16-bit operand is lost in 20 bits by a shift of at most 3. -/
theorem shiftedAddend_toNat (a : U16) (bit : Bool) {k : Nat} (hk : k ≤ 3) :
    (if bit then a.setWidth 20 <<< k else 0#20).toNat = a.toNat * (bit.toNat * 2 ^ k) := by
  cases bit with
  | false => simp
  | true =>
    have hpow : 2 ^ k ≤ 2 ^ 3 := Nat.pow_le_pow_right (by omega) hk
    have hfits : a.toNat * 2 ^ k < 2 ^ 20 := by nlinarith [a.isLt]
    have hwidth : a.toNat < 2 ^ 20 := by omega
    simpa [Nat.shiftLeft_eq, Nat.mod_eq_of_lt hwidth] using hfits

/-- A partial product is the operand times the nibble, and fits `pp` (R66). -/
theorem nibbleProduct_toNat (a : U16) (n : BitVec 4) : (nibbleProduct a n).toNat = a.toNat * n.toNat := by
  have hfits : a.toNat * n.toNat < 2 ^ 16 * 2 ^ 4 := Nat.mul_lt_mul'' a.isLt n.isLt
  have h0 := shiftedAddend_toNat a (n.getLsbD 0) (Nat.zero_le 3)
  have h1 := shiftedAddend_toNat a (n.getLsbD 1) (show 1 ≤ 3 by omega)
  have h2 := shiftedAddend_toNat a (n.getLsbD 2) (show 2 ≤ 3 by omega)
  have h3 := shiftedAddend_toNat a (n.getLsbD 3) (Nat.le_refl 3)
  rw [BitVec.shiftLeft_zero] at h0
  rw [nibble_eq_sum_bits n, Nat.mul_add, Nat.mul_add, Nat.mul_add] at hfits ⊢
  rw [nibbleProduct, BitVec.toNat_add, BitVec.toNat_add, BitVec.toNat_add, h0, h1, h2, h3]
  omega

/-- The partial sum invariant of R66: step `k` extends the product by the nibble at `4k`. -/
theorem mul16Nibble_acc_toNat {a b : U16} {r : Mul16Regs} {k : Nat}
    (hacc : r.acc.toNat = a.toNat * (b.toNat % 2 ^ (4 * k))) :
    (mul16Nibble a b r k).acc.toNat = a.toNat * (b.toNat % 2 ^ (4 * (k + 1))) := by
  have hsum : a.toNat * (b.toNat % 2 ^ (4 * (k + 1))) =
      a.toNat * (b.toNat % 2 ^ (4 * k)) + a.toNat * (nibble b k).toNat * 2 ^ (4 * k) := by
    rw [nibble_toNat, Nat.mul_succ, Nat.pow_add, Nat.mod_mul]
    ring
  have hfits : a.toNat * (b.toNat % 2 ^ (4 * (k + 1))) < 2 ^ 32 :=
    Nat.mul_lt_mul'' (c := 2 ^ 16) (d := 2 ^ 16) a.isLt ((Nat.mod_le ..).trans_lt b.isLt)
  have hpp : (nibbleProduct a (nibble b k)).toNat < 2 ^ 32 := by omega
  rw [mul16Nibble, BitVec.toNat_add, BitVec.toNat_shiftLeft, BitVec.toNat_setWidth, Nat.mod_eq_of_lt hpp,
    nibbleProduct_toNat, Nat.shiftLeft_eq, Nat.add_mod_mod, hacc, ← hsum, Nat.mod_eq_of_lt hfits]

/-- After the first `k` nibbles the accumulator holds the product with the second operand's low `4k` bits. -/
theorem foldl_mul16Nibble_acc_toNat {a b : U16} {r : Mul16Regs} (hload : r.acc = 0#32) (k : Nat) :
    ((List.range k).foldl (mul16Nibble a b) r).acc.toNat = a.toNat * (b.toNat % 2 ^ (4 * k)) := by
  induction k with
  | zero => simp [hload, Nat.mod_one]
  | succ k ih =>
    rw [List.range_succ, List.foldl_append]
    exact mul16Nibble_acc_toNat ih

/-- Settles O23: four nibbles are the whole second operand, and the load of `acc` makes the earlier contents irrelevant. -/
theorem mulSixteenNibblesMeetContract : Obligations.MulSixteenNibblesMeetContract := by
  intro old a b
  refine ⟨BitVec.eq_of_toNat_eq ?_, nibbleProduct_toNat a⟩
  calc (mul16ByNibbles old a b).toNat = a.toNat * (b.toNat % 2 ^ (4 * 4)) := foldl_mul16Nibble_acc_toNat rfl 4
    _ = a.toNat * b.toNat := by rw [Nat.mod_eq_of_lt b.isLt]
    _ = (mul16 a b).toNat := (mul16_toNat a b).symm

end Sys2Proof.Proofs

namespace Sys2Proof.Proofs

open Sys2Proof Sys2Proof.Machine

/-! RANGE: the next table word and the clamp (R73), and the frame of an operation that may take free values. -/

/-- What an operation that may take free values answers and leaves unchanged (log 8, log 9, log 10). -/
theorem answer_spendOpen_effect (s : State) (r : Response) :
    (s.answer r).spendOpen.request = none ∧ (s.answer r).spendOpen.response = some r ∧
      KeepsBlock s (s.answer r).spendOpen :=
  ⟨by simp, by simp, keepsBlock_of_eq (by simp) (by simp)⟩

/-- Below the last bucket the next word is the one at the following index, which does not wrap (R73). -/
theorem nextWord_eq_read_of_succ (m : Memory) {e j : U5} (hj : j.toNat = e.toNat + 1) : nextWord m e = m.read j := by
  have hlast : e ≠ 31#5 := by bv_omega
  have hindex : e + 1#5 = j := by bv_omega
  simp [nextWord, isLastBucket, hlast, hindex]

/-- In the last bucket no index 32 is formed and the next word is the constant 1 (R73). -/
theorem nextWord_toNat_of_last (m : Memory) {e : U5} (he : e.toNat = 31) : (nextWord m e).toNat = 1 := by
  obtain rfl : e = 31#5 := BitVec.eq_of_toNat_eq he
  rfl

/-- Settles O13: RANGE's index is the bucket that holds the operand, and there CLZ32 is 31 minus it. -/
theorem rangeLocatesBucket : Obligations.RangeLocatesBucket := by
  intro x s hx
  obtain ⟨e, hlo, hhi⟩ := exists_bucket hx
  have hexec : exec (.range x) s =
      .next (s.answer (.bucket e (s.table.read e) (nextWord s.table e))).spendOpen := by
    rw [exec_range, range_of_bucket _ _ hlo hhi]
  have hcount : e.toNat + (clz32 x).toNat = 31 := by
    have := clz32_toNat_of_bucket hlo hhi
    omega
  obtain ⟨hreq, hresp, hkeeps⟩ :=
    answer_spendOpen_effect s (.bucket e (s.table.read e) (nextWord s.table e))
  exact ⟨_, e, s.table.read e, nextWord s.table e, hexec, hreq, hresp, hkeeps, fun _ => rfl, hcount, hlo, hhi, rfl,
    fun _ j => nextWord_eq_read_of_succ s.table, nextWord_toNat_of_last s.table⟩

end Sys2Proof.Proofs

namespace Sys2Proof.Proofs

open Sys2Proof Sys2Proof.Machine

/-! FRAC: its quotient as the right shift and as the left shift (R77), and its operands cut from a request. -/

theorem decode_frac_append (q : Variant) (x : U32) (e : U5) : decode q (.frac (x ++ e)) = .frac x e :=
  congrArg₂ Instr.frac (upper_of_append x e) (lower_of_append x e)

/-- A position in a bucket at least as wide as the Q16 scale: the scale cancels and a right shift is left. -/
theorem mul_two_pow_div_two_pow_of_le {n e : Nat} (r : Nat) (h : n ≤ e) : r * 2 ^ n / 2 ^ e = r / 2 ^ (e - n) := by
  obtain ⟨d, rfl⟩ := Nat.exists_eq_add_of_le' h
  rw [Nat.add_sub_cancel, Nat.pow_add, Nat.mul_div_mul_right _ _ (Nat.two_pow_pos n)]

/-- A position in a bucket no wider than the Q16 scale: the bucket's width cancels, the quotient is exact and a left shift is left. -/
theorem mul_two_pow_div_two_pow_of_ge {n e : Nat} (r : Nat) (h : e ≤ n) : r * 2 ^ n / 2 ^ e = r * 2 ^ (n - e) := by
  rw [Nat.mul_div_assoc _ (Nat.pow_dvd_pow 2 h), Nat.pow_div h (by omega)]

/-- Settles O14: in the bucket FRAC is R77's quotient, whose powers of two cancel into a right shift from bucket 16 on and into a
left shift below it. -/
theorem fracPlacesOperandInBucket : Obligations.FracPlacesOperandInBucket := by
  intro x e s hlo hhi
  have hquot := frac_toNat s.openCount hlo hhi
  obtain ⟨hreq, hresp, hkeeps⟩ := answer_spendOpen_effect s (.frac (frac s.openCount x e))
  refine ⟨_, frac s.openCount x e, exec_frac x e s, hreq, hresp, hkeeps, fun q => decode_frac_append q x e, hquot,
    fun hright => ?_, fun hleft => ?_⟩
  · rw [hquot, mul_two_pow_div_two_pow_of_le _ hright]
  · rw [hquot, mul_two_pow_div_two_pow_of_ge _ hleft.le]

end Sys2Proof.Proofs

namespace Sys2Proof.Proofs

open Sys2Proof Sys2Proof.Machine

/-! NEWTON.REF: its operands cut from a request (R42), and the value function of R85. -/

theorem decode_newtonRef_append (q : Variant) (x y : U32) : decode q (.newtonRef (x ++ y)) = .newtonRef x y :=
  congrArg₂ Instr.newtonRef (upper_of_append x y) (lower_of_append x y)

/-- Settles O17: each line of R86 is the matching line of R85 on integers, because MULSA cuts its product to 64 bits, the square
reaches its multiplicand port whole, and the subtraction from three and the sum with half of `2^17` wrap at the widths R85 names. -/
theorem newtonRefIsValueFunction : Obligations.NewtonRefIsValueFunction := by
  intro x y s _
  obtain ⟨hreq, hresp, hkeeps⟩ := answer_spendMulsa_effect s (.estimate (newtonRef x y))
  exact ⟨_, newtonRef x y, exec_newtonRef x y s, hreq, hresp, hkeeps, fun q => decode_newtonRef_append q x y,
    newtonRef_toNat x y⟩

end Sys2Proof.Proofs

namespace Sys2Proof.Proofs

open Sys2Proof Sys2Proof.Machine

/-! RSQRT with any table: the seed from the bucket's two words, and both schedules from their seed (R101 to R103). -/

/-- A bucket that holds a 32-bit operand, by its 5-bit index. -/
theorem exists_index_of_bucket {x : U32} {e : Nat} (hlo : 2 ^ e ≤ x.toNat) : ∃ i : U5, i.toNat = e :=
  ⟨BitVec.ofNat 5 e, by simpa using bucket_lt hlo⟩

/-- The next word (R73) by the number of the bucket. -/
theorem nextWord_eq_ite (m : Memory) (e : U5) : nextWord m e = if e.toNat < 31 then m.read (e + 1#5) else 1#16 := by
  split
  case isTrue hlt => exact nextWord_eq_read_of_succ m (by bv_omega)
  case isFalse hlast => exact BitVec.eq_of_toNat_eq (nextWord_toNat_of_last m (by omega))

/-- The seed at NEWTON's port, for any table that does not rise in the bucket of the operand. -/
theorem setWidth_seedOpt_toNat_of_drop (k : Nat) {m : Memory} {x : U32} {e : U5} (hlo : 2 ^ e.toNat ≤ x.toNat)
    (hhi : x.toNat < 2 ^ (e.toNat + 1)) (hdrop : (nextWord m e).toNat ≤ (m.read e).toNat) :
    ((seedOpt k m x).setWidth 32).toNat = seedNat x.toNat e.toNat (m.read e).toNat (nextWord m e).toNat := by
  have hseed : seedOpt k m x = interpOpt k x e (m.read e) (nextWord m e) := by
    rw [seedOpt, range_of_bucket k m hlo hhi]
  rw [BitVec.toNat_setWidth, Nat.mod_eq_of_lt (by omega), hseed, interpOpt_toNat k hlo hhi hdrop]

@[simp] theorem rsqrtRef_zero (k : Nat) (m : Memory) : rsqrtRef k m 0#32 = 0#32 := rsqrt_zero .ref k m

@[simp] theorem rsqrtOpt_zero (k : Nat) (m : Memory) : rsqrtOpt k m 0#32 = 0#32 := rsqrt_zero .opt k m

/-- R102's two steps as numbers, from the value of the seed. -/
theorem rsqrtRef_toNat_of_seed {k : Nat} {m : Memory} {x : U32} {y0 : Nat} (hx : x ≠ 0#32)
    (hseed : ((seedOpt k m x).setWidth 32).toNat = y0) :
    (rsqrtRef k m x).toNat = newtonNat x.toNat (newtonNat x.toNat y0) := by
  rw [rsqrtRef_of_ne_zero k m hx, newtonRef_toNat, newtonRef_toNat, hseed]

/-- Settles O19: RANGE and INTERP give the seed of the bucket (for R33's words, or any two that do not rise), and each NEWTON.REF is
the value function. -/
theorem rsqrtRefIsTwoStepsFromSeed : Obligations.RsqrtRefIsTwoStepsFromSeed := by
  intro x s _
  obtain ⟨hreq, hresp, hkeeps⟩ := answer_spendMulsa_effect s (.y (rsqrtRef s.openCount s.table x))
  refine ⟨_, _, exec_rsqrtRef x s, hreq, hresp, hkeeps, fun _ => rfl, ?zero, ?valid, ?other⟩
  case zero =>
    rintro rfl
    exact rsqrtRef_zero ..
  case valid =>
    intro hm e hlo hhi
    obtain ⟨i, rfl⟩ := exists_index_of_bucket hlo
    exact rsqrtRef_toNat_of_seed (ne_zero_of_bucket hlo) (setWidth_seedOpt_toNat _ hm hlo hhi)
  case other =>
    intro e next hlo hhi hnext hdrop
    obtain rfl : next = nextWord s.table e := hnext.trans (nextWord_eq_ite s.table e).symm
    exact rsqrtRef_toNat_of_seed (ne_zero_of_bucket hlo) (setWidth_seedOpt_toNat_of_drop _ hlo hhi hdrop)

/-! The two realisations of NEWTON agree at the seed of a valid table (R92, R103, R104). -/

/-- At the seed NEWTON.OPT cuts no bit: the seed fits 16 bits, and `xy2` is at most three. -/
theorem newtonOpt_seedOpt_eq_newtonRef (k : Nat) {m : Memory} (hm : HoldsTable m) {x : U32} (hx : x ≠ 0#32) :
    newtonOpt x ((seedOpt k m x).setWidth 32) = newtonRef x ((seedOpt k m x).setWidth 32) := by
  obtain ⟨e, hlo, hhi⟩ := exists_bucket hx
  have hseed := setWidth_seedOpt_toNat k hm hlo hhi
  have hfits : ((seedOpt k m x).setWidth 32).toNat < 2 ^ 16 :=
    hseed ▸ (tableSeed_le ..).trans_lt (tableWord _).isLt
  have hbound := tableSeed_bound e.isLt hhi
  have hxy : x.toNat * ((seedOpt k m x).setWidth 32).toNat ^ 2 / 65536 ≤ 196608 := by
    rw [hseed]
    omega
  apply BitVec.eq_of_toNat_eq
  rw [newtonOpt_toNat_eq_closedStep hfits hxy, newtonRef_toNat_eq_closedStep hx hxy]

/-- With a valid table RSQRT.OPT is the reference schedule's first estimate (R104). -/
theorem rsqrtOpt_eq_newtonRef (k : Nat) {m : Memory} (hm : HoldsTable m) {x : U32} (hx : x ≠ 0#32) :
    rsqrtOpt k m x = newtonRef x ((seedOpt k m x).setWidth 32) := by
  rw [rsqrtOpt_of_ne_zero k m hx, newtonOpt_seedOpt_eq_newtonRef k hm hx]

/-- Settles O20: the seed is that of O19, and at the seed of R33's table NEWTON.OPT cuts nothing, so it is the value function. -/
theorem rsqrtOptIsOneStepFromSeed : Obligations.RsqrtOptIsOneStepFromSeed := by
  intro x s _
  obtain ⟨hreq, hresp, hkeeps⟩ := answer_spendMul16_effect s (.y (rsqrtOpt s.openCount s.table x))
  refine ⟨_, _, exec_rsqrtOpt x s, hreq, hresp, hkeeps, fun _ => rfl, ?zero, ?valid, ?other⟩
  case zero =>
    rintro rfl
    exact rsqrtOpt_zero ..
  case valid =>
    intro hm e hlo hhi
    obtain ⟨i, rfl⟩ := exists_index_of_bucket hlo
    rw [rsqrtOpt_eq_newtonRef _ hm (ne_zero_of_bucket hlo), newtonRef_toNat, setWidth_seedOpt_toNat _ hm hlo hhi]
  case other =>
    intro e next hlo hhi hnext hdrop
    obtain rfl : next = nextWord s.table e := hnext.trans (nextWord_eq_ite s.table e).symm
    refine ⟨(seedOpt s.openCount s.table x).setWidth 32, setWidth_seedOpt_toNat_of_drop _ hlo hhi hdrop, ?_⟩
    rw [exec_newtonOpt, rsqrtOpt_of_ne_zero _ _ (ne_zero_of_bucket hlo)]
    simp

/-- Two valid tables give one seed, whatever the free values (R81, R104). -/
theorem seedOpt_eq_of_holdsTable (k l : Nat) {m n : Memory} (hm : HoldsTable m) (hn : HoldsTable n) {x : U32}
    (hx : x ≠ 0#32) : seedOpt k m x = seedOpt l n x := by
  obtain ⟨e, hlo, hhi⟩ := exists_bucket hx
  apply BitVec.eq_of_toNat_eq
  rw [seedOpt_toNat k hm hlo hhi, seedOpt_toNat l hn hlo hhi]

theorem newtonRef_zero : newtonRef 0#32 0#32 = 0#32 := rfl

/-- One more NEWTON.REF step takes RSQRT.OPT's result to RSQRT.REF's, `x = 0` included (R104). -/
theorem newtonRef_rsqrtOpt (k l : Nat) {m n : Memory} (hm : HoldsTable m) (hn : HoldsTable n) (x : U32) :
    newtonRef x (rsqrtOpt k m x) = rsqrtRef l n x := by
  by_cases hx : x = 0#32
  · subst hx
    rw [rsqrtOpt_zero, rsqrtRef_zero, newtonRef_zero]
  · rw [rsqrtOpt_eq_newtonRef k hm hx, rsqrtRef_of_ne_zero l n hx, seedOpt_eq_of_holdsTable k l hm hn hx]

/-- Settles O28: with R33's words both schedules have one seed, where the two realisations of NEWTON agree. -/
theorem variantsDifferByOneStep : Obligations.VariantsDifferByOneStep := by
  intro x s u _ _ hs hu
  have hone := newtonRef_rsqrtOpt u.openCount s.openCount hu hs x
  refine ⟨rsqrtOpt u.openCount u.table x, rsqrtRef s.openCount s.table x, by simp, by simp, by simp [hone], ?_,
    fun hx => ?_⟩
  · rw [← hone, newtonRef_toNat]
  · have hseed : seedOpt u.openCount u.table x = seedRef s.openCount s.table x := by
      rw [seedRef_eq_seedOpt, seedOpt_eq_of_holdsTable _ _ hu hs hx]
    exact ⟨by rw [rsqrtOpt_eq_newtonRef _ hu hx, hseed], hseed⟩

/-! The block's own port (R40, R100). -/

/-- A request in flight is decoded by VARIANT and executed (R131). -/
theorem step_of_request {s : State} {r : Request} (hs : s.resetArrived = false) (hr : s.request = some r) :
    step s = exec (decode s.variant r) s := by
  simp [step, hs, State.fetch, hr]

/-- Settles O5: VARIANT picks the operation that the block's request decodes to, and each answers 0 for `x = 0`. -/
theorem blockRequestAnswersRsqrt : Obligations.BlockRequestAnswersRsqrt := by
  intro s x hs hr
  have hstep := step_of_request hs hr
  cases hv : s.variant with
  | ref =>
    rw [hv] at hstep
    obtain ⟨hreq, hresp, hkeeps⟩ := answer_spendMulsa_effect s (.y (rsqrtRef s.openCount s.table x))
    refine ⟨_, _, hstep.trans (exec_rsqrtRef x s), hreq, hresp, hkeeps, ?_, fun _ => exec_rsqrtRef x s, nofun⟩
    rintro rfl
    exact rsqrtRef_zero ..
  | opt =>
    rw [hv] at hstep
    obtain ⟨hreq, hresp, hkeeps⟩ := answer_spendMul16_effect s (.y (rsqrtOpt s.openCount s.table x))
    refine ⟨_, _, hstep.trans (exec_rsqrtOpt x s), hreq, hresp, hkeeps, ?_, nofun, fun _ => exec_rsqrtOpt x s⟩
    rintro rfl
    exact rsqrtOpt_zero ..

end Sys2Proof.Proofs

namespace Sys2Proof.Proofs

open Sys2Proof Sys2Proof.Machine

/-! No step faults or refuses (R110). -/

/-- Every operation of R46 completes, on either variant and on operands outside its contract too (log 5, 8, 9, 10). -/
theorem exec_answers (s : State) : ∀ i : Instr, ∃ t : State, exec i s = .next t
  | .rsqrtRef x => ⟨_, exec_rsqrtRef x s⟩
  | .rsqrtOpt x => ⟨_, exec_rsqrtOpt x s⟩
  | .clz32 v => ⟨_, exec_clz32 v s⟩
  | .mulsa a b => ⟨_, exec_mulsa a b s⟩
  | .mul16 a b => ⟨_, exec_mul16 a b s⟩
  | .xy2Opt x sq => ⟨_, exec_xy2Opt x sq s⟩
  | .romrd j => ⟨_, exec_romrd j s⟩
  | .range x => ⟨_, exec_range x s⟩
  | .frac x e => ⟨_, exec_frac x e s⟩
  | .interpRef x e base next => ⟨_, exec_interpRef x e base next s⟩
  | .interpOpt x e base next => ⟨_, exec_interpOpt x e base next s⟩
  | .newtonRef x y => ⟨_, exec_newtonRef x y s⟩
  | .newtonOpt x y => ⟨_, exec_newtonOpt x y s⟩

/-- Settles O4: a step is a reset event, an idle step or an operation, and each of them answers a next state. -/
theorem everyStepAnswers : Obligations.EveryStepAnswers := by
  intro s
  obtain ⟨_, hreset⟩ | ⟨_, _, hidle⟩ | ⟨r, _, _, hexec⟩ := step_cases s
  · exact ⟨s.blockReset, hreset⟩
  · exact ⟨s.idle, hidle⟩
  · obtain ⟨t, ht⟩ := exec_answers s (decode s.variant r)
    exact ⟨t, hexec.trans ht⟩

end Sys2Proof.Proofs

namespace Sys2Proof.Proofs

open Sys2Proof Sys2Proof.Machine

/-! Request words: neighbouring fields of a word concatenate to the field that covers both, and a field above the last operand of a
concatenation is a field of what stands before it (R42). -/

theorem extractLsb'_above_append {n m : Nat} (a : BitVec n) (b : BitVec m) (start len : Nat) :
    BitVec.extractLsb' (start + m) len (a ++ b) = BitVec.extractLsb' start len a := by
  apply BitVec.eq_of_toNat_eq
  have hupper : (a.toNat * 2 ^ m + b.toNat) / 2 ^ m = a.toNat := by
    rw [Nat.mul_comm, Nat.mul_add_div (Nat.two_pow_pos m), Nat.div_eq_of_lt b.isLt, Nat.add_zero]
  rw [BitVec.extractLsb'_toNat, BitVec.extractLsb'_toNat, append_toNat, Nat.shiftRight_eq_div_pow,
    Nat.shiftRight_eq_div_pow, Nat.add_comm start, Nat.pow_add, ← Nat.div_div_eq_div_mul, hupper]

theorem append_extractLsb'_adjacent {k : Nat} (w : BitVec k) (start m n : Nat) :
    BitVec.extractLsb' (start + m) n w ++ BitVec.extractLsb' start m w = BitVec.extractLsb' start (n + m) w := by
  apply BitVec.eq_of_toNat_eq
  rw [append_toNat, BitVec.extractLsb'_toNat, BitVec.extractLsb'_toNat, BitVec.extractLsb'_toNat,
    Nat.shiftRight_eq_div_pow, Nat.shiftRight_eq_div_pow, Nat.pow_add, ← Nat.div_div_eq_div_mul, Nat.add_comm n,
    Nat.pow_add, Nat.mod_mul]
  ring

/-- A request word of two operands is the concatenation of its two fields. -/
theorem append_extractLsb'_whole {n m : Nat} (w : BitVec (n + m)) :
    BitVec.extractLsb' m n w ++ BitVec.extractLsb' 0 m w = w := by
  apply BitVec.eq_of_toNat_eq
  rw [append_toNat, BitVec.extractLsb'_toNat, BitVec.extractLsb'_toNat, Nat.shiftRight_eq_div_pow, Nat.shiftRight_zero,
    Nat.mod_eq_of_lt (Nat.div_lt_of_lt_mul (by rw [← Nat.pow_add, Nat.add_comm m]; exact w.isLt))]
  exact Nat.div_add_mod' ..

theorem decode_newtonOpt_append (q : Variant) (x y : U32) : decode q (.newtonOpt (x ++ y)) = .newtonOpt x y :=
  congrArg₂ Instr.newtonOpt (upper_of_append x y) (lower_of_append x y)

/-- The four fields of INTERP's request word (R42). -/
theorem extractLsb'_interp_append (x : U32) (e : U5) (base next : U16) :
    BitVec.extractLsb' 37 32 (((x ++ e) ++ base) ++ next) = x ∧
    BitVec.extractLsb' 32 5 (((x ++ e) ++ base) ++ next) = e ∧
    BitVec.extractLsb' 16 16 (((x ++ e) ++ base) ++ next) = base ∧
    BitVec.extractLsb' 0 16 (((x ++ e) ++ base) ++ next) = next := by
  refine ⟨?x, ?e, ?base, lower_of_append _ _⟩
  case x =>
    calc BitVec.extractLsb' 37 32 (((x ++ e) ++ base) ++ next)
      _ = BitVec.extractLsb' 21 32 ((x ++ e) ++ base) := extractLsb'_above_append _ _ 21 32
      _ = BitVec.extractLsb' 5 32 (x ++ e) := extractLsb'_above_append _ _ 5 32
      _ = x := upper_of_append x e
  case e =>
    calc BitVec.extractLsb' 32 5 (((x ++ e) ++ base) ++ next)
      _ = BitVec.extractLsb' 16 5 ((x ++ e) ++ base) := extractLsb'_above_append _ _ 16 5
      _ = BitVec.extractLsb' 0 5 (x ++ e) := extractLsb'_above_append _ _ 0 5
      _ = e := lower_of_append x e
  case base =>
    calc BitVec.extractLsb' 16 16 (((x ++ e) ++ base) ++ next)
      _ = BitVec.extractLsb' 0 16 ((x ++ e) ++ base) := extractLsb'_above_append _ _ 0 16
      _ = base := lower_of_append _ _

theorem decode_interpRef_append (q : Variant) (x : U32) (e : U5) (base next : U16) :
    decode q (.interpRef (((x ++ e) ++ base) ++ next)) = .interpRef x e base next := by
  obtain ⟨hx, he, hbase, hnext⟩ := extractLsb'_interp_append x e base next
  rw [decode, hx, he, hbase, hnext]

theorem decode_interpOpt_append (q : Variant) (x : U32) (e : U5) (base next : U16) :
    decode q (.interpOpt (((x ++ e) ++ base) ++ next)) = .interpOpt x e base next := by
  obtain ⟨hx, he, hbase, hnext⟩ := extractLsb'_interp_append x e base next
  rw [decode, hx, he, hbase, hnext]

/-- The four fields of INTERP's request word are the whole word. -/
theorem append_extractLsb'_interp (w : BitVec 69) :
    ((BitVec.extractLsb' 37 32 w ++ BitVec.extractLsb' 32 5 w) ++ BitVec.extractLsb' 16 16 w) ++
      BitVec.extractLsb' 0 16 w = w :=
  calc ((BitVec.extractLsb' 37 32 w ++ BitVec.extractLsb' 32 5 w) ++ BitVec.extractLsb' 16 16 w) ++
        BitVec.extractLsb' 0 16 w
    _ = (BitVec.extractLsb' 32 37 w ++ BitVec.extractLsb' 16 16 w) ++ BitVec.extractLsb' 0 16 w := by
        rw [append_extractLsb'_adjacent w 32 5 32]
    _ = BitVec.extractLsb' 16 53 w ++ BitVec.extractLsb' 0 16 w := by
        rw [append_extractLsb'_adjacent w 16 16 37]
    _ = w := append_extractLsb'_whole (n := 53) (m := 16) w

/-- Every operation is read back from its request word. -/
theorem decode_encode (v : Variant) (i : Instr) : decode v (encode i) = i := by
  cases i with
  | rsqrtRef x => rfl
  | rsqrtOpt x => rfl
  | clz32 x => rfl
  | mulsa a b => exact decode_mulsa_append v a b
  | mul16 a b => exact decode_mul16_append v a b
  | xy2Opt x sq => exact decode_xy2Opt_append v x sq
  | romrd j => rfl
  | range x => rfl
  | frac x e => exact decode_frac_append v x e
  | interpRef x e base next => exact decode_interpRef_append v x e base next
  | interpOpt x e base next => exact decode_interpOpt_append v x e base next
  | newtonRef x y => exact decode_newtonRef_append v x y
  | newtonOpt x y => exact decode_newtonOpt_append v x y

/-- Every request word at a unit's port is the word of the operation it stands for. The block's own port is the exception (R50). -/
theorem encode_decode (v : Variant) {r : Request} (hr : ∀ w, r ≠ .rsqrt w) : encode (decode v r) = r := by
  cases r with
  | rsqrt w => exact absurd rfl (hr w)
  | rsqrtRef w => rfl
  | rsqrtOpt w => rfl
  | clz32 w => rfl
  | mulsa w => exact congrArg Request.mulsa (append_extractLsb'_whole (n := 64) (m := 32) w)
  | mul16 w => exact congrArg Request.mul16 (append_extractLsb'_whole (n := 16) (m := 16) w)
  | xy2Opt w => exact congrArg Request.xy2Opt (append_extractLsb'_whole (n := 32) (m := 32) w)
  | romrd w => rfl
  | range w => rfl
  | frac w => exact congrArg Request.frac (append_extractLsb'_whole (n := 32) (m := 5) w)
  | interpRef w => exact congrArg Request.interpRef (append_extractLsb'_interp w)
  | interpOpt w => exact congrArg Request.interpOpt (append_extractLsb'_interp w)
  | newtonRef w => exact congrArg Request.newtonRef (append_extractLsb'_whole (n := 32) (m := 32) w)
  | newtonOpt w => exact congrArg Request.newtonOpt (append_extractLsb'_whole (n := 32) (m := 32) w)

/-- Settles O2: the fields a port cuts are the operands that encode concatenated, and together they are the whole word. -/
theorem decodeEncodeAgree : Obligations.DecodeEncodeAgree :=
  ⟨decode_encode, fun v _ hr => encode_decode v hr⟩

/-- Settles O3: the words stand in the spec's test vectors; the field boundaries are those of R42. -/
theorem sampleRequestWordsDecode : Obligations.SampleRequestWordsDecode := by
  intro v
  exact ⟨rfl, rfl, rfl, rfl, rfl, rfl, rfl, rfl, rfl⟩

end Sys2Proof.Proofs

namespace Sys2Proof.Proofs

open Sys2Proof Sys2Proof.Machine

/-! What every operation does, said once: its response as a function of TABLE and the index of the next free value, and the registers it
spends. -/

/-- The response of an operation. -/
def resultOf (k : Nat) (m : Memory) : Instr → Response
  | .rsqrtRef x => .y (rsqrtRef k m x)
  | .rsqrtOpt x => .y (rsqrtOpt k m x)
  | .clz32 v => .count (clz32 v)
  | .mulsa a b => .prod64 (mulsa a b)
  | .mul16 a b => .prod32 (mul16 a b)
  | .xy2Opt x sq => .xy2 (xy2Opt x sq)
  | .romrd i => .word (m.read i)
  | .range x => .bucket (range k m x).exp (range k m x).yBase (range k m x).yNext
  | .frac x e => .frac (frac k x e)
  | .interpRef x e base next => .seed (interpRef k x e base next)
  | .interpOpt x e base next => .seed (interpOpt k x e base next)
  | .newtonRef x y => .estimate (newtonRef x y)
  | .newtonOpt x y => .estimate (newtonOpt x y)

/-- The operations that use no multiplier and may take free values (log 8, log 9). -/
def takesFreeValue : Instr → Bool
  | .range _ => true
  | .frac _ _ => true
  | _ => false

/-- The state an operation leaves behind: the registers of the multiplier it may use are spent, or a free value is. -/
def spendFor (i : Instr) (s : State) : State :=
  if usesMulsa i then s.spendMulsa
  else if usesMul16 i then s.spendMul16
  else if takesFreeValue i then s.spendOpen
  else s

/-- Every operation delivers its result and spends its registers, and does nothing else. -/
theorem exec_eq_spendFor (i : Instr) (s : State) :
    exec i s = .next (spendFor i (s.answer (resultOf s.openCount s.table i))) := by
  cases i <;> rfl

section
variable (i : Instr) (s : State)

@[simp] theorem spendFor_variant : (spendFor i s).variant = s.variant := by
  unfold spendFor
  split_ifs <;> rfl

@[simp] theorem spendFor_table : (spendFor i s).table = s.table := by
  unfold spendFor
  split_ifs <;> rfl

@[simp] theorem spendFor_request : (spendFor i s).request = s.request := by
  unfold spendFor
  split_ifs <;> rfl

@[simp] theorem spendFor_response : (spendFor i s).response = s.response := by
  unfold spendFor
  split_ifs <;> rfl

@[simp] theorem spendFor_resetArrived : (spendFor i s).resetArrived = s.resetArrived := by
  unfold spendFor
  split_ifs <;> rfl

@[simp] theorem spendFor_stepCounter : (spendFor i s).stepCounter = s.stepCounter := by
  unfold spendFor
  split_ifs <;> rfl

theorem openCount_le_spendFor : s.openCount ≤ (spendFor i s).openCount := by
  unfold spendFor
  split_ifs
  · exact Nat.le_succ _
  · exact Nat.le_succ _
  · exact Nat.le_succ _
  · exact Nat.le_refl _

/-- What is spent does not depend on VARIANT (log 5). -/
theorem spendFor_with_variant (v : Variant) :
    spendFor i { s with variant := v } = { spendFor i s with variant := v } := by
  unfold spendFor
  split_ifs <;> rfl

variable {i}

theorem spendFor_mulsa (h : usesMulsa i = false) : (spendFor i s).mulsa = s.mulsa := by
  rw [spendFor, if_neg (by simp [h])]
  split_ifs <;> rfl

theorem spendFor_mul16 (h : usesMul16 i = false) : (spendFor i s).mul16 = s.mul16 := by
  rw [spendFor, if_neg (show ¬usesMul16 i = true by simp [h])]
  split_ifs <;> rfl

end

/-- What an operation answers, and what no operation changes. -/
theorem exec_effect (i : Instr) (s : State) :
    ∃ t, exec i s = .next t ∧ t.request = none ∧ t.response = some (resultOf s.openCount s.table i) ∧
      t.resetArrived = s.resetArrived ∧ KeepsBlock s t :=
  ⟨_, exec_eq_spendFor i s, by simp, by simp, by simp, keepsBlock_of_eq (by simp) (by simp)⟩

theorem responseOf_exec (i : Instr) (s : State) :
    responseOf (exec i s) = some (resultOf s.openCount s.table i) := by
  simp [exec_eq_spendFor]

/-- Settles O16: no operation refuses, so these answer a result of their own shape on every operand tuple. -/
theorem operandsOutsideContractComplete : Obligations.OperandsOutsideContractComplete := by
  intro x e base next s
  have answers (i : Instr) : ∃ t, exec i s = .next t ∧ t.request = none ∧
      t.response = some (resultOf s.openCount s.table i) ∧ KeepsBlock s t := by
    obtain ⟨t, hexec, hreq, hresp, _, hkeeps⟩ := exec_effect i s
    exact ⟨t, hexec, hreq, hresp, hkeeps⟩
  refine ⟨?range, ?frac, ?interpRef, ?interpOpt⟩
  case range =>
    obtain ⟨t, ht⟩ := answers (.range x)
    exact ⟨t, _, _, _, ht⟩
  case frac =>
    obtain ⟨t, ht⟩ := answers (.frac x e)
    exact ⟨t, _, ht⟩
  case interpRef =>
    obtain ⟨t, ht⟩ := answers (.interpRef x e base next)
    exact ⟨t, _, ht⟩
  case interpOpt =>
    obtain ⟨t, ht⟩ := answers (.interpOpt x e base next)
    exact ⟨t, _, ht⟩

/-- Settles O35: an operation spends only the registers of the multiplier it uses, and an idle step only takes the response away. -/
theorem idleRegistersKeepValuesByChoice : Obligations.IdleRegistersKeepValuesByChoice := by
  refine ⟨fun i s => ⟨_, exec_eq_spendFor i s, fun h => ?_, fun h => ?_, ?_, ?_, ?_⟩, fun s hs hr => step_of_idle hs hr⟩
  · rw [spendFor_mulsa _ h, State.answer_mulsa]
  · rw [spendFor_mul16 _ h, State.answer_mul16]
  · simp
  · simp
  · exact openCount_le_spendFor i (s.answer _)

/-- Settles O36: neither the result of an operation nor what it spends depends on VARIANT. -/
theorem otherVariantOperationsRunAlike : Obligations.OtherVariantOperationsRunAlike := by
  intro i s v
  refine ⟨_, exec_eq_spendFor i s, ?_⟩
  rw [exec_eq_spendFor, ← spendFor_with_variant]
  rfl

/-! Whole steps: TABLE and VARIANT, reset, and the step of a request (R109, R125, R126, R131). -/

/-- No step changes TABLE or VARIANT (R11, R18, R125 a). -/
theorem step_keepsBlock {s t : State} (h : step s = .next t) : KeepsBlock s t := by
  obtain ⟨_, hreset⟩ | ⟨_, _, hidle⟩ | ⟨r, _, _, hexec⟩ := step_cases s
  · obtain rfl : s.blockReset = t := by simpa [hreset] using h
    exact keepsBlock_of_eq (by simp) (by simp)
  · obtain rfl : s.idle = t := by simpa [hidle] using h
    exact keepsBlock_of_eq (by simp) (by simp)
  · obtain ⟨u, hu, _, _, _, hkeeps⟩ := exec_effect (decode s.variant r) s
    obtain rfl : u = t := by simpa [hexec, hu] using h
    exact hkeeps

/-- Settles O39: whatever a step is, it keeps TABLE and VARIANT, and the canonical form is one of TABLE alone. -/
theorem stepChangesNoTableWord : Obligations.StepChangesNoTableWord := by
  intro s t h
  obtain ⟨hvar, htab, hread⟩ := step_keepsBlock h
  exact ⟨htab, hvar, hread, fun hwf => htab ▸ hwf⟩

/-- A bare word never reads as the block's own request, so VARIANT does not matter to what it stands for (log 6). -/
theorem decode_requestOfWord {nbits w : Nat} {r : Request} (h : requestOfWord nbits w = .ok r) (v q : Variant) :
    decode v r = decode q r := by
  cases r with
  | rsqrt x =>
    unfold requestOfWord at h
    grind
  | _ => rfl

/-- What `withFetchWord` presents when the bare word reads as an operation. -/
theorem step_withFetchWord (s : State) {nbits w : Nat} {i : Instr} (h : decodeTableWord nbits w = some i) :
    step (s.withFetchWord nbits w) = exec i (s.withFetchWord nbits w) := by
  cases hr : requestOfWord nbits w with
  | error err => simp [decodeTableWord, hr] at h
  | ok r =>
    obtain rfl : decode Config.resetVariant r = i := by simpa [decodeTableWord, hr] using h
    have hstate : s.withFetchWord nbits w = { s with request := some r, resetArrived := false } := by
      simp [State.withFetchWord, hr]
    rw [hstate, step_of_request rfl rfl, decode_requestOfWord hr]

/-- Settles O1: the three shapes of a step with no reset event waiting. -/
theorem stepRunsDecodedRequest : Obligations.StepRunsDecodedRequest :=
  ⟨fun _ _ hs hr => step_of_request hs hr,
    fun s hs hr => ⟨s.idle, step_of_idle hs hr, hr, rfl, keepsBlock_of_eq rfl rfl⟩,
    fun s _ _ _ h => step_withFetchWord s h⟩

/-- Settles O6: the reset state lists no table word, and an unlisted index reads as its word of R33. -/
theorem resetLeavesBlockIdle : Obligations.ResetLeavesBlockIdle :=
  ⟨fun _ => ⟨rfl, rfl, rfl, rfl, rfl, holdsTable_nil⟩, Config.resetVariant, rfl⟩

/-- Settles O7: the reset event is taken first and cleared, so a request presented next is executed. -/
theorem resetEventAbandonsOperation : Obligations.ResetEventAbandonsOperation := by
  intro s hs
  have hstep : step s = .next s.blockReset := by simp [step, hs]
  exact ⟨s.blockReset, hstep, rfl, rfl, rfl, rfl, rfl, fun _ => rfl, fun r => step_present rfl r⟩

/-- Settles O38: the reset state shows no response, and its table is the one of R33. -/
theorem resetMeetsBlockInvariant : Obligations.ResetMeetsBlockInvariant := by
  have hreset (v : Variant) : Inv (State.resetOf v []) :=
    ⟨rfl, holdsTable_nil, fun _ => nofun, fun _ => nofun, fun _ => nofun⟩
  exact ⟨hreset _, hreset⟩

end Sys2Proof.Proofs

namespace Sys2Proof.Proofs

open Sys2Proof Sys2Proof.Machine

/-! MULSA's shift-add loop (R62, R63). -/

/-- What the accumulator still has to become: itself plus the product of the two other registers. -/
def mulsaTotal (r : MulsaRegs) : U64 := r.acc + mulsa r.a r.b

/-- One iteration moves one bit of the multiplier into the accumulator. -/
theorem mulsaTotal_iteration (r : MulsaRegs) : mulsaTotal (mulsaIteration r) = mulsaTotal r := by
  have hbit : r.b.toNat % 2 = (r.b.getLsbD 0).toNat := by
    rw [BitVec.getLsbD, Nat.testBit_zero]
    rcases Nat.mod_two_eq_zero_or_one r.b.toNat with h | h <;> simp [h]
  have hprod : r.a.toNat * r.b.toNat = r.a.toNat * 2 * (r.b.toNat / 2) + r.a.toNat * (r.b.getLsbD 0).toNat := by
    conv_lhs => rw [← Nat.div_add_mod r.b.toNat 2, hbit]
    ring
  apply BitVec.eq_of_toNat_eq
  simp only [mulsaTotal, mulsaIteration, BitVec.toNat_add, mulsa_toNat, BitVec.toNat_shiftLeft,
    BitVec.toNat_ushiftRight, Nat.shiftLeft_eq, Nat.shiftRight_eq_div_pow, pow_one, hprod, Nat.mod_mul_mod]
  cases r.b.getLsbD 0
  · simp
  · simp [Nat.add_assoc, Nat.add_comm, Nat.add_left_comm]

/-- With no multiplier bit left the accumulator is final. -/
theorem mulsaTotal_of_b_eq_zero {r : MulsaRegs} (h : r.b.toNat = 0) : mulsaTotal r = r.acc := by
  apply BitVec.eq_of_toNat_eq
  simpa [mulsaTotal, h] using r.acc.isLt

/-- An iteration shortens the multiplier by one bit. -/
theorem mulsaIteration_b_lt {r : MulsaRegs} {n : Nat} (h : r.b.toNat < 2 ^ (n + 1)) :
    (mulsaIteration r).b.toNat < 2 ^ n := by
  rw [Nat.pow_succ] at h
  simp only [mulsaIteration, BitVec.toNat_ushiftRight, Nat.shiftRight_eq_div_pow]
  omega

/-- As many iterations as the multiplier has bits complete the accumulator. -/
theorem mulsaIterate_acc {n : Nat} {r : MulsaRegs} (h : r.b.toNat < 2 ^ n) : (mulsaIterate n r).acc = mulsaTotal r := by
  induction n generalizing r with
  | zero => exact (mulsaTotal_of_b_eq_zero (Nat.lt_one_iff.1 h)).symm
  | succ n ih => rw [mulsaIterate, ih (mulsaIteration_b_lt h), mulsaTotal_iteration]

/-- Stopping once the multiplier is 0 leaves the accumulator as all iterations would (R63). -/
theorem mulsaIterateEarly_acc {n : Nat} {r : MulsaRegs} (h : r.b.toNat < 2 ^ n) :
    (mulsaIterateEarly n r).acc = mulsaTotal r := by
  induction n generalizing r with
  | zero => exact (mulsaTotal_of_b_eq_zero (Nat.lt_one_iff.1 h)).symm
  | succ n ih =>
    unfold mulsaIterateEarly
    split
    case isTrue hb => exact (mulsaTotal_of_b_eq_zero (by simp [hb])).symm
    case isFalse => rw [ih (mulsaIteration_b_lt h), mulsaTotal_iteration]

theorem mulsaTotal_load (old : MulsaRegs) (a : U64) (b : U32) : mulsaTotal (mulsaLoad old a b) = mulsa a b :=
  BitVec.zero_add _

theorem mulsaByLoop_eq (old : MulsaRegs) (a : U64) (b : U32) : mulsaByLoop old a b = mulsa a b :=
  (mulsaIterate_acc b.isLt).trans (mulsaTotal_load old a b)

theorem mulsaByLoopEarly_eq (old : MulsaRegs) (a : U64) (b : U32) : mulsaByLoopEarly old a b = mulsa a b :=
  (mulsaIterateEarly_acc b.isLt).trans (mulsaTotal_load old a b)

/-- Settles O22: every iteration keeps the accumulator plus the product still to add, and the load makes that the contract's product. -/
theorem mulsaLoopMeetsContract : Obligations.MulsaLoopMeetsContract := by
  intro old a b
  refine ⟨mulsaByLoop_eq old a b, mulsaByLoopEarly_eq old a b, ?_⟩
  rw [mulsaByLoopEarly_eq]
  exact BitVec.eq_of_toNat_eq (by simp)

end Sys2Proof.Proofs

namespace Sys2Proof.Proofs

open Sys2Proof Sys2Proof.Machine

/-! The seed: INTERP's result, its place between the table words, and its order (R77 to R82). -/

/-- Settles O15: the two variants' products agree, and inside the contract no subtraction borrows. -/
theorem interpAnswersInterpolatedSeed : Obligations.InterpAnswersInterpolatedSeed := by
  intro x e base next s u _ _ hlo hhi hdrop
  have hvalue (k : Nat) := interpOpt_toNat k hlo hhi hdrop
  have hshared : interpRef s.openCount x e base next = interpOpt u.openCount x e base next := by
    rw [interpRef_eq_interpOpt]
    exact BitVec.eq_of_toNat_eq ((hvalue _).trans (hvalue _).symm)
  obtain ⟨hreq, hresp, hkeeps⟩ := answer_spendMulsa_effect s (.seed (interpRef s.openCount x e base next))
  obtain ⟨hreq', hresp', hkeeps'⟩ := answer_spendMul16_effect u (.seed (interpOpt u.openCount x e base next))
  exact ⟨_, _, interpOpt u.openCount x e base next, exec_interpRef .., hreq, hshared ▸ hresp, hkeeps, exec_interpOpt ..,
    hreq', hresp', hkeeps', fun q => ⟨decode_interpRef_append q x e base next, decode_interpOpt_append q x e base next⟩,
    hvalue _⟩

/-- FRAC's quotient stays below 1 in its bucket. -/
theorem frac_quotient_lt {x e : Nat} (hhi : x < 2 ^ (e + 1)) : (x - 2 ^ e) * 2 ^ 16 / 2 ^ e < 2 ^ 16 := by
  rw [Nat.pow_succ] at hhi
  have hpos : 0 < 2 ^ e := by positivity
  rw [Nat.div_lt_iff_lt_mul hpos, Nat.mul_comm]
  exact Nat.mul_lt_mul_of_pos_left (by omega) (by norm_num)

/-- The interpolated drop is less than the whole drop, so the seed lies above the next word (R81 a). -/
theorem nextNat_lt_tableSeed {x e : Nat} (he : e < 31) (hhi : x < 2 ^ (e + 1)) : nextNat e < tableSeed x e := by
  have hdrop : nextNat e < (tableWord e).toNat := by simpa [nextNat, he] using tableWord_succ_lt he
  have hpart : ((tableWord e).toNat - nextNat e) * ((x - 2 ^ e) * 2 ^ 16 / 2 ^ e) / 2 ^ 16 <
      (tableWord e).toNat - nextNat e := by
    rw [Nat.div_lt_iff_lt_mul (by norm_num)]
    exact Nat.mul_lt_mul_of_pos_left (frac_quotient_lt hhi) (by omega)
  rw [tableSeed, seedNat]
  omega

theorem nextNat_le_tableSeed {x e : Nat} (he : e < 32) (hhi : x < 2 ^ (e + 1)) : nextNat e ≤ tableSeed x e := by
  obtain rfl | he31 : e = 31 ∨ e < 31 := by omega
  · rw [tableSeed_last]
    rfl
  · exact (nextNat_lt_tableSeed he31 hhi).le

theorem one_le_tableSeed {x e : Nat} (he : e < 32) (hhi : x < 2 ^ (e + 1)) : 1 ≤ tableSeed x e := by
  refine le_trans ?_ (nextNat_le_tableSeed he hhi)
  unfold nextNat
  split
  · exact one_le_tableWord (by omega)
  · exact Nat.le_refl 1

/-- INTERP on what RANGE gives is the seed of the bucket. -/
theorem interpOpt_toNat_of_holdsTable (k : Nat) {m : Memory} (hm : HoldsTable m) {x : U32} {e : U5}
    (hlo : 2 ^ e.toNat ≤ x.toNat) (hhi : x.toNat < 2 ^ (e.toNat + 1)) :
    (interpOpt k x e (m.read e) (nextWord m e)).toNat = tableSeed x.toNat e.toNat := by
  have hseed := seedOpt_toNat k hm hlo hhi
  rwa [seedOpt, range_of_bucket k m hlo hhi] at hseed

theorem read_eq_of_holdsTable {m n : Memory} (hm : HoldsTable m) (hn : HoldsTable n) (i : U5) : m.read i = n.read i :=
  (hm i).trans (hn i).symm

theorem nextWord_eq_of_holdsTable {m n : Memory} (hm : HoldsTable m) (hn : HoldsTable n) (e : U5) :
    nextWord m e = nextWord n e :=
  BitVec.eq_of_toNat_eq ((nextWord_toNat hm e).trans (nextWord_toNat hn e).symm)

/-- With valid tables RANGE gives one answer for a non-zero operand, whatever the free values. -/
theorem range_eq_of_holdsTable (k l : Nat) {m n : Memory} (hm : HoldsTable m) (hn : HoldsTable n) {x : U32}
    (hx : x ≠ 0#32) : range k m x = range l n x := by
  obtain ⟨e, hlo, hhi⟩ := exists_bucket hx
  rw [range_of_bucket k m hlo hhi, range_of_bucket l n hlo hhi, read_eq_of_holdsTable hm hn,
    nextWord_eq_of_holdsTable hm hn]

/-- Settles O24: inside the bucket the interpolated drop is less than the whole drop; in the last bucket there is no drop. -/
theorem seedLiesBetweenTableWords : Obligations.SeedLiesBetweenTableWords := by
  intro x s u _ _ hs hu hx
  obtain ⟨e, hlo, hhi⟩ := exists_bucket hx
  have hrange (k : Nat) := range_of_bucket k s.table hlo hhi
  have hnext := nextWord_toNat hs e
  have hseed (k : Nat) := interpOpt_toNat_of_holdsTable k hs hlo hhi
  have hshared : interpOpt s.openCount x e (s.table.read e) (nextWord s.table e) =
      interpOpt u.openCount x e (s.table.read e) (nextWord s.table e) :=
    BitVec.eq_of_toNat_eq ((hseed _).trans (hseed _).symm)
  refine ⟨e, s.table.read e, nextWord s.table e, interpOpt u.openCount x e (s.table.read e) (nextWord s.table e),
    ?_, ?_, ?_, ?_, ?_, ?_, ?_⟩
  · simp [hrange]
  · simp [range_eq_of_holdsTable u.openCount u.openCount hu hs hx, hrange]
  · simp [interpRef_eq_interpOpt, hshared]
  · simp
  · intro he
    rw [hnext, hseed, hs e]
    exact ⟨nextNat_lt_tableSeed (by omega) hhi, tableSeed_le ..⟩
  · intro he
    rw [hseed, hs e, he, tableSeed_last]
    exact ⟨rfl, rfl⟩
  · rw [hseed]
    exact one_le_tableSeed e.isLt hhi

/-- In one bucket a larger operand interpolates a larger drop (R81 c). -/
theorem tableSeed_anti_of_bucket {a b : Nat} (e : Nat) (hab : a ≤ b) : tableSeed b e ≤ tableSeed a e := by
  have hquot : (a - 2 ^ e) * 2 ^ 16 / 2 ^ e ≤ (b - 2 ^ e) * 2 ^ 16 / 2 ^ e :=
    Nat.div_le_div_right (Nat.mul_le_mul_right _ (Nat.sub_le_sub_right hab _))
  exact Nat.sub_le_sub_left (Nat.div_le_div_right (Nat.mul_le_mul_left _ hquot)) _

theorem tableWord_anti {i j : Nat} (hij : i ≤ j) (hj : j < 32) : (tableWord j).toNat ≤ (tableWord i).toNat := by
  induction j, hij using Nat.le_induction with
  | base => exact Nat.le_refl _
  | succ j _ ih => exact (tableWord_succ_lt (by omega)).le.trans (ih (by omega))

/-- The seed never rises with the operand (R81 c): a later bucket starts no higher than where an earlier one ends. -/
theorem tableSeed_anti {a b d e : Nat} (hab : a ≤ b) (hd : 2 ^ d ≤ a) (ha : a < 2 ^ (d + 1)) (hb : b < 2 ^ (e + 1))
    (he : e < 32) : tableSeed b e ≤ tableSeed a d := by
  have hde : d < e + 1 := (Nat.pow_lt_pow_iff_right (by omega)).1 ((hd.trans hab).trans_lt hb)
  obtain rfl | hlt : d = e ∨ d < e := by omega
  · exact tableSeed_anti_of_bucket d hab
  · have hd31 : d < 31 := by omega
    calc tableSeed b e
      _ ≤ (tableWord e).toNat := tableSeed_le b e
      _ ≤ (tableWord (d + 1)).toNat := tableWord_anti hlt he
      _ = nextNat d := by simp [nextNat, hd31]
      _ ≤ tableSeed a d := (nextNat_lt_tableSeed hd31 ha).le

/-- Settles O25: both schedules share their seed, and it never rises inside a bucket or from one bucket to a later one. -/
theorem seedNeverIncreases : Obligations.SeedNeverIncreases := by
  intro m k a b hm ha hab
  have ha0 : a ≠ 0#32 := by
    rintro rfl
    exact absurd ha (by simp)
  have hb0 : b ≠ 0#32 := by
    rintro rfl
    exact absurd (ha.trans_le hab) (by simp)
  obtain ⟨d, halo, hahi⟩ := exists_bucket ha0
  obtain ⟨e, hblo, hbhi⟩ := exists_bucket hb0
  have hseed : (seedOpt k m b).toNat ≤ (seedOpt k m a).toNat := by
    rw [seedOpt_toNat k hm halo hahi, seedOpt_toNat k hm hblo hbhi]
    exact tableSeed_anti hab halo hahi hbhi e.isLt
  rw [seedRef_eq_seedOpt, seedRef_eq_seedOpt]
  exact ⟨hseed, hseed⟩

end Sys2Proof.Proofs

namespace Sys2Proof.Proofs

open Sys2Proof Sys2Proof.Machine

/-! NEWTON.OPT's pseudocode, and the estimate 1 (R85 to R87, R93). -/

/-- Where `term` has no bit above its integer part, R87's split result is R85's value (D11). -/
theorem newtonNat_eq_round {x y term : Nat} (hx : x < 2 ^ 32) (hy : y < 2 ^ 16)
    (hterm : term = (0x30000 + 2 ^ 32 - x * (y * y) / 2 ^ 16 % 2 ^ 32) % 2 ^ 32) (hlt : term < 2 ^ 18) :
    newtonNat x y = (y * term + 65536) / 131072 := by
  have hsq : y * y * x < 2 ^ 64 :=
    calc y * y * x
      _ < 2 ^ 32 * 2 ^ 32 := Nat.mul_lt_mul'' (Nat.mul_lt_mul'' (c := 2 ^ 16) (d := 2 ^ 16) hy hy) hx
      _ = 2 ^ 64 := by norm_num
  have hround : y * term < 2 ^ 16 * 2 ^ 18 := Nat.mul_lt_mul'' hy hlt
  rw [Nat.mul_comm x] at hterm
  simp only [newtonNat, Nat.mod_eq_of_lt hsq, ← hterm]
  omega

/-- Settles O18: NEWTON.OPT is R87's pseudocode on integers, and inside its conditions the two parts of `term` recombine to R85's. -/
theorem newtonOptSplitsTerm : Obligations.NewtonOptSplitsTerm := by
  intro x y s _
  obtain ⟨hreq, hresp, hkeeps⟩ := answer_spendMul16_effect s (.estimate (newtonOpt x y))
  refine ⟨_, newtonOpt x y, exec_newtonOpt x y s, hreq, hresp, hkeeps, fun q => decode_newtonOpt_append q x y, ?_⟩
  rintro h _ term hh rfl hterm
  have hvalue := newtonOpt_toNat x y hh hterm
  refine ⟨hvalue, fun hy hlt => ?_⟩
  obtain rfl : h = y.toNat := by omega
  rw [hvalue, split_round_eq hlt, newtonNat_eq_round x.isLt hy hterm hlt]

/-- The estimate 1 as R93 has it, with the threshold 65536. -/
def unitSuccessor (x : U32) : U32 := if 65536 ≤ x.toNat then 1#32 else 2#32

theorem unitSuccessor_toNat (x : U32) : (unitSuccessor x).toNat = (196608 - x.toNat / 65536 + 65536) / 131072 := by
  have hx := x.isLt
  unfold unitSuccessor
  split
  · rw [BitVec.toNat_ofNat]
    omega
  · rw [BitVec.toNat_ofNat]
    omega

theorem newtonRef_one (x : U32) : newtonRef x 1#32 = unitSuccessor x := by
  have hx := x.isLt
  apply BitVec.eq_of_toNat_eq
  rw [newtonRef_toNat, unitSuccessor_toNat]
  simp only [newtonNat, BitVec.toNat_ofNat]
  omega

theorem newtonOpt_one (x : U32) : newtonOpt x 1#32 = unitSuccessor x := by
  have hx := x.isLt
  apply BitVec.eq_of_toNat_eq
  rw [newtonOpt_toNat (h := 1) x 1#32 rfl rfl, unitSuccessor_toNat]
  omega

/-- From `2^31` on the operand lies in the last bucket, whose seed is 1, and 1 is a fixed point there (R93). -/
theorem rsqrt_eq_one_of_large (v : Variant) (k : Nat) {m : Memory} (hm : HoldsTable m) {x : U32}
    (hx : 2 ^ 31 ≤ x.toNat) : rsqrt v k m x = 1#32 := by
  have hfixed : closedStep x.toNat 1 = 1 := closedStep_one (by omega) x.isLt
  apply BitVec.eq_of_toNat_eq
  rw [rsqrt_toNat_of_bucket v k hm (e := 31#5) hx x.isLt]
  exact (congrArg _ (tableSeed_last x.toNat)).trans (Function.iterate_fixed hfixed _)

/-- Settles O31: with the estimate 1 both realisations round `(4 * 65536 - floor (x / 65536)) / 2 ^ 17`. -/
theorem unitEstimateFixedPoint : Obligations.UnitEstimateFixedPoint := by
  intro x s u _ _
  refine ⟨?_, ?_, fun hx => ⟨fun hs => ?_, fun hu => ?_⟩⟩
  · rw [responseOf_exec, resultOf, newtonRef_one, unitSuccessor]
  · rw [responseOf_exec, resultOf, newtonOpt_one, unitSuccessor]
  · exact (responseOf_exec ..).trans (congrArg (some ∘ Response.y) (rsqrt_eq_one_of_large .ref _ hs hx))
  · exact (responseOf_exec ..).trans (congrArg (some ∘ Response.y) (rsqrt_eq_one_of_large .opt _ hu hx))

end Sys2Proof.Proofs

namespace Sys2Proof.Proofs

open Sys2Proof Sys2Proof.Machine

/-! Responses: the block's own request, sequences with unit requests in between, and what no response depends on (R21, R109). -/

theorem resultOf_decode_rsqrt (v : Variant) (k : Nat) (m : Memory) (x : U32) :
    resultOf k m (decode v (.rsqrt x)) = .y (rsqrt v k m x) := by
  cases v <;> rfl

/-- Settles O27: the step runs RSQRT of the operand, whose steps from the seed are exact. -/
theorem responseIsClosedFormulaIterated : Obligations.ResponseIsClosedFormulaIterated := by
  intro s x e hm hs hr hlo hhi
  obtain ⟨i, rfl⟩ := exists_index_of_bucket hlo
  obtain ⟨t, hexec, _, hresp, _, _⟩ := exec_effect (decode s.variant (.rsqrt x)) s
  rw [resultOf_decode_rsqrt] at hresp
  exact ⟨t, _, (step_of_request hs hr).trans hexec, hresp, rsqrt_toNat_of_bucket s.variant _ hm hlo hhi⟩

/-- One request of any kind: its response, and what the next request meets. -/
theorem step_present_effect {s : State} (hs : s.resetArrived = false) (r : Request) :
    ∃ t, step (s.present r) = .next t ∧
      t.response = some (resultOf s.openCount s.table (decode s.variant r)) ∧
      t.variant = s.variant ∧ t.table = s.table ∧ t.resetArrived = false := by
  obtain ⟨t, hexec, _, hresp, hreset, hvar, htab, _⟩ := exec_effect (decode s.variant r) (s.present r)
  exact ⟨t, (step_present hs r).trans hexec, hresp, hvar, htab, hreset.trans hs⟩

theorem length_serve {s : State} (hs : s.resetArrived = false) (rs : List Request) :
    (serve s rs).length = rs.length := by
  induction rs generalizing s with
  | nil => rfl
  | cons r rs ih =>
    obtain ⟨t, hstep, _, _, _, hreset⟩ := step_present_effect hs r
    rw [serve_cons_of_step hstep, List.length_cons, ih hreset, List.length_cons]

theorem serve_ne_none {s : State} (hs : s.resetArrived = false) (rs : List Request) : ∀ o ∈ serve s rs, o ≠ none := by
  induction rs generalizing s with
  | nil => exact nofun
  | cons r rs ih =>
    obtain ⟨t, hstep, hresp, _, _, hreset⟩ := step_present_effect hs r
    rw [serve_cons_of_step hstep, hresp]
    exact List.forall_mem_cons.2 ⟨nofun, ih hreset⟩

/-- Wherever the block's request stands in the sequence, its response is RSQRT of its operand. -/
theorem serve_getElem?_rsqrt {s : State} (hm : HoldsTable s.table) (hs : s.resetArrived = false) {rs : List Request}
    {k : Nat} {x : U32} (hk : rs[k]? = some (.rsqrt x)) :
    (serve s rs)[k]? = some (some (.y (rsqrt s.variant 0 s.table x))) := by
  induction rs generalizing s k with
  | nil => simp at hk
  | cons r rs ih =>
    obtain ⟨t, hstep, hresp, hvar, htab, hreset⟩ := step_present_effect hs r
    rw [serve_cons_of_step hstep]
    cases k with
    | zero =>
      obtain rfl : r = .rsqrt x := by simpa using hk
      rw [List.getElem?_cons_zero, hresp, resultOf_decode_rsqrt, rsqrt_openCount_irrelevant s.variant _ 0 hm]
    | succ k =>
      rw [List.getElem?_cons_succ, ← hvar, ← htab]
      exact ih (htab ▸ hm) hreset (by simpa using hk)

/-- Settles O33: by induction over the sequence; every request keeps VARIANT and TABLE, and RSQRT depends on nothing else. -/
theorem unitRequestsLeaveNoTrace : Obligations.UnitRequestsLeaveNoTrace :=
  fun _ rs hm hs _ => ⟨length_serve hs rs, serve_ne_none hs rs, fun _ _ => serve_getElem?_rsqrt hm hs⟩

theorem rsqrt_eq_of_holdsTable (v : Variant) (k l : Nat) {m n : Memory} (hm : HoldsTable m) (hn : HoldsTable n)
    (x : U32) : rsqrt v k m x = rsqrt v l n x := by
  by_cases hx : x = 0#32
  · simp [hx]
  · obtain ⟨e, hlo, hhi⟩ := exists_bucket hx
    apply BitVec.eq_of_toNat_eq
    rw [rsqrt_toNat_of_bucket v k hm hlo hhi, rsqrt_toNat_of_bucket v l hn hlo hhi]

theorem frac_openCount_irrelevant (k l : Nat) {x : U32} {e : U5} (h : inBucket x e = true) : frac k x e = frac l x e := by
  rw [frac, frac, if_pos h, if_pos h]

theorem interpOpt_openCount_irrelevant (k l : Nat) {x : U32} {e : U5} {base next : U16} (h : inBucket x e = true)
    (hdrop : next.toNat ≤ base.toNat) : interpOpt k x e base next = interpOpt l x e base next := by
  obtain ⟨hlo, hhi⟩ := (inBucket_iff x e).1 h
  exact BitVec.eq_of_toNat_eq ((interpOpt_toNat k hlo hhi hdrop).trans (interpOpt_toNat l hlo hhi hdrop).symm)

/-- Inside its contract an operation takes no free value, and it reads nothing but R33's words. -/
theorem resultOf_eq_of_holdsTable (k l : Nat) {m n : Memory} (hm : HoldsTable m) (hn : HoldsTable n) {i : Instr}
    (hi : i.wellFormed = true) : resultOf k m i = resultOf l n i := by
  cases i with
  | rsqrtRef x => exact congrArg Response.y (rsqrt_eq_of_holdsTable .ref k l hm hn x)
  | rsqrtOpt x => exact congrArg Response.y (rsqrt_eq_of_holdsTable .opt k l hm hn x)
  | romrd j => exact congrArg Response.word (read_eq_of_holdsTable hm hn j)
  | range x =>
    have hx : x ≠ 0#32 := by simpa [Instr.wellFormed] using hi
    rw [resultOf, resultOf, range_eq_of_holdsTable k l hm hn hx]
  | frac x e => exact congrArg Response.frac (frac_openCount_irrelevant k l hi)
  | interpRef x e base next =>
    obtain ⟨hbucket, hdrop⟩ : inBucket x e = true ∧ next.toNat ≤ base.toNat := by simpa [Instr.wellFormed] using hi
    rw [resultOf, resultOf, interpRef_eq_interpOpt, interpRef_eq_interpOpt,
      interpOpt_openCount_irrelevant k l hbucket hdrop]
  | interpOpt x e base next =>
    obtain ⟨hbucket, hdrop⟩ : inBucket x e = true ∧ next.toNat ≤ base.toNat := by simpa [Instr.wellFormed] using hi
    rw [resultOf, resultOf, interpOpt_openCount_irrelevant k l hbucket hdrop]
  | _ => rfl

/-- Settles O34: a response is a function of the operation, TABLE and the free values, and inside the contract none of those is taken. -/
theorem responseIgnoresLeftovers : Obligations.ResponseIgnoresLeftovers := by
  intro i s u hs hu hi
  obtain ⟨s', hexec, _, hresp, _, _⟩ := exec_effect i s
  obtain ⟨u', hexec', _, hresp', _, _⟩ := exec_effect i u
  exact ⟨s', u', _, hexec, hexec', hresp, hresp'.trans (congrArg some (resultOf_eq_of_holdsTable _ _ hu hs hi))⟩

end Sys2Proof.Proofs

namespace Sys2Proof.Proofs

open Sys2Proof Sys2Proof.Machine

/-! Estimates: what the seed and the first estimate have in common, so that no line of a Newton step wraps (R89, R90, R92). -/

/-- A Newton estimate `y` of `65536 / sqrt x` from which a step does not wrap: it fits 17 bits, `xy2` is at most 147455, and
`y * term` is at most `2^33`. -/
structure IsEstimate (x y : Nat) : Prop where
  pos : 1 ≤ y
  le : y ≤ 65536
  sq_lt : x * y ^ 2 < 147456 * 65536
  round_le : y * (196608 - x * y ^ 2 / 65536) ≤ 2 ^ 33

/-- A step from an estimate is positive: for `y = 1` because `xy2` is then below 65536, above because `term` is at least 49153. -/
theorem one_le_closedStep {x y : Nat} (hx : x < 2 ^ 32) (hy : 1 ≤ y) (hsq : x * y ^ 2 < 147456 * 65536) :
    1 ≤ closedStep x y := by
  have hround : 65536 ≤ y * (196608 - x * y ^ 2 / 65536) := by
    obtain rfl | hy2 : y = 1 ∨ 2 ≤ y := by omega
    · omega
    · calc 65536 ≤ 2 * 49153 := by norm_num
        _ ≤ y * (196608 - x * y ^ 2 / 65536) := Nat.mul_le_mul hy2 (by omega)
  simp only [closedStep]
  omega

/-- From the operand 2 on a step ends at most one above `65536 / sqrt 2`. -/
theorem closedStep_le_of_two_le {x y : Nat} (hx : 2 ≤ x) (hy : y ≤ 65536) (hsq : x * y ^ 2 < 147456 * 65536) :
    closedStep x y ≤ 46341 := by
  have hbound : 2 * (closedStep x y - 1) ^ 2 ≤ 2 ^ 32 :=
    (Nat.mul_le_mul_right _ hx).trans (closedStep_sub_one_bound hy (by omega))
  have hroot : closedStep x y - 1 < 46341 := lt_of_pow_lt_pow_left₀ 2 (by omega) (by omega)
  omega

theorem isEstimate_of_two_le {x y : Nat} (hx : 2 ≤ x) (hpos : 1 ≤ y) (hle : y ≤ 65536)
    (hsq : x * y ^ 2 < 147456 * 65536) : IsEstimate x y where
  pos := hpos
  le := hle
  sq_lt := hsq
  round_le := by
    have hstep := closedStep_le_of_two_le hx hle hsq
    simp only [closedStep] at hstep
    omega

theorem tableWord_sq_le {e : Nat} (he : e < 32) : 2 ^ (e + 1) * (tableWord e).toNat ^ 2 ≤ 147456 * 65536 := by
  revert e
  decide

theorem tableSeed_sq_lt {x e : Nat} (he : e < 32) (hhi : x < 2 ^ (e + 1)) :
    x * tableSeed x e ^ 2 < 147456 * 65536 :=
  have hword : 0 < (tableWord e).toNat ^ 2 := Nat.pow_pos (one_le_tableWord he)
  calc x * tableSeed x e ^ 2
    _ ≤ x * (tableWord e).toNat ^ 2 := Nat.mul_le_mul_left x (Nat.pow_le_pow_left (tableSeed_le x e) 2)
    _ < 2 ^ (e + 1) * (tableWord e).toNat ^ 2 := Nat.mul_lt_mul_of_pos_right hhi hword
    _ ≤ 147456 * 65536 := tableWord_sq_le he

theorem tableSeed_lt (x : Nat) (e : Nat) : tableSeed x e < 2 ^ 16 := (tableSeed_le x e).trans_lt (tableWord e).isLt

theorem tableSeed_one : tableSeed 1 0 = 65535 := rfl

theorem closedStep_one_tableSeed : closedStep 1 (tableSeed 1 0) = 65536 := rfl

/-- The bucket 0 holds the operand 1 alone. -/
theorem eq_one_or_two_le {x e : Nat} (hlo : 2 ^ e ≤ x) (hhi : x < 2 ^ (e + 1)) : (x = 1 ∧ e = 0) ∨ 2 ≤ x := by
  cases e with
  | zero => exact .inl ⟨by omega, rfl⟩
  | succ e =>
    have hpow : 1 ≤ 2 ^ e := Nat.one_le_two_pow
    rw [Nat.pow_succ] at hlo
    exact .inr (by omega)

/-- Even the next word at the low end of a bucket makes `xy2` positive; the seed lies above it, so that `ti` is at most 2 (R87). -/
theorem nextNat_sq_ge {e : Nat} (he : e < 32) : 65536 ≤ 2 ^ e * nextNat e ^ 2 := by
  revert e
  decide

theorem tableSeed_sq_ge {x e : Nat} (he : e < 32) (hlo : 2 ^ e ≤ x) (hhi : x < 2 ^ (e + 1)) :
    65536 ≤ x * tableSeed x e ^ 2 :=
  (nextNat_sq_ge he).trans (Nat.mul_le_mul hlo (Nat.pow_le_pow_left (nextNat_le_tableSeed he hhi) 2))

theorem isEstimate_tableSeed {x e : Nat} (he : e < 32) (hlo : 2 ^ e ≤ x) (hhi : x < 2 ^ (e + 1)) :
    IsEstimate x (tableSeed x e) := by
  obtain ⟨rfl, rfl⟩ | hx := eq_one_or_two_le hlo hhi
  · rw [tableSeed_one]
    exact ⟨by norm_num, by norm_num, by norm_num, by norm_num⟩
  · exact isEstimate_of_two_le hx (one_le_tableSeed he hhi) (tableSeed_lt x e).le (tableSeed_sq_lt he hhi)

/-- In the bucket 30 the seed is 2 and a step from it does not rise. -/
theorem closedStep_tableSeed_thirty_le {x : Nat} (hlo : 2 ^ 30 ≤ x) (hhi : x < 2 ^ 31) :
    closedStep x (tableSeed x 30) ≤ 2 := by
  have hbase : tableSeed x 30 ≤ 2 := tableSeed_le x 30
  have hnext : 1 < tableSeed x 30 := nextNat_lt_tableSeed (e := 30) (by norm_num) hhi
  obtain hseed : tableSeed x 30 = 2 := by omega
  rw [hseed]
  simp only [closedStep]
  omega

/-- An estimate at most one above the true value, for operands below `2^30`, where the true value is above 2. -/
theorem sq_lt_of_sub_one_bound {x y : Nat} (hx : x < 2 ^ 30) (hy : x * (y - 1) ^ 2 ≤ 2 ^ 32) :
    x * y ^ 2 < 147456 * 65536 := by
  have hroot : x * (y - 1) ≤ 2 ^ 31 := by
    apply (Nat.pow_le_pow_iff_left (n := 2) (by omega)).1
    calc (x * (y - 1)) ^ 2
      _ = x * (x * (y - 1) ^ 2) := by ring
      _ ≤ 2 ^ 30 * 2 ^ 32 := Nat.mul_le_mul hx.le hy
      _ = (2 ^ 31) ^ 2 := by norm_num
  have hsq : x * y ^ 2 ≤ x * (y - 1) ^ 2 + 2 * (x * (y - 1)) + x :=
    calc x * y ^ 2
      _ ≤ x * (y - 1 + 1) ^ 2 := Nat.mul_le_mul_left x (Nat.pow_le_pow_left (by omega) 2)
      _ = x * (y - 1) ^ 2 + 2 * (x * (y - 1)) + x := by ring
  omega

theorem first_estimate_sq_lt {x e : Nat} (he : e < 32) (hlo : 2 ^ e ≤ x) (hhi : x < 2 ^ (e + 1)) :
    x * closedStep x (tableSeed x e) ^ 2 < 147456 * 65536 := by
  have hseed := isEstimate_tableSeed he hlo hhi
  obtain rfl | rfl | he30 : e = 31 ∨ e = 30 ∨ e < 30 := by omega
  · rw [tableSeed_last, closedStep_one (by omega) hhi]
    omega
  · calc x * closedStep x (tableSeed x 30) ^ 2
      _ ≤ 2 ^ 31 * 2 ^ 2 :=
          Nat.mul_le_mul hhi.le (Nat.pow_le_pow_left (closedStep_tableSeed_thirty_le hlo hhi) 2)
      _ < 147456 * 65536 := by norm_num
  · have hx : x < 2 ^ 30 := hhi.trans_le (Nat.pow_le_pow_right (by omega) he30)
    exact sq_lt_of_sub_one_bound hx (closedStep_sub_one_bound hseed.le (by have := hseed.sq_lt; omega))

theorem isEstimate_first {x e : Nat} (he : e < 32) (hlo : 2 ^ e ≤ x) (hhi : x < 2 ^ (e + 1)) :
    IsEstimate x (closedStep x (tableSeed x e)) := by
  obtain ⟨rfl, rfl⟩ | hx := eq_one_or_two_le hlo hhi
  · rw [closedStep_one_tableSeed]
    exact ⟨by norm_num, by norm_num, by norm_num, by norm_num⟩
  · have hseed := isEstimate_tableSeed he hlo hhi
    have hx32 : x < 2 ^ 32 := hhi.trans_le (Nat.pow_le_pow_right (by omega) he)
    exact isEstimate_of_two_le hx (one_le_closedStep hx32 hseed.pos hseed.sq_lt)
      ((closedStep_le_of_two_le hx hseed.le hseed.sq_lt).trans (by norm_num)) (first_estimate_sq_lt he hlo hhi)

/-! The results of the two schedules as exact steps from the seed (R102, R103). -/

theorem rsqrtRef_toNat_of_bucket (k : Nat) {m : Memory} (hm : HoldsTable m) {x : U32} {e : U5}
    (hlo : 2 ^ e.toNat ≤ x.toNat) (hhi : x.toNat < 2 ^ (e.toNat + 1)) :
    (rsqrtRef k m x).toNat = closedStep x.toNat (closedStep x.toNat (tableSeed x.toNat e.toNat)) := by
  have hvalue := rsqrt_toNat_of_bucket .ref k hm hlo hhi
  rwa [nsteps, Function.iterate_succ_apply', Function.iterate_one] at hvalue

theorem rsqrtOpt_toNat_of_bucket (k : Nat) {m : Memory} (hm : HoldsTable m) {x : U32} {e : U5}
    (hlo : 2 ^ e.toNat ≤ x.toNat) (hhi : x.toNat < 2 ^ (e.toNat + 1)) :
    (rsqrtOpt k m x).toNat = closedStep x.toNat (tableSeed x.toNat e.toNat) := by
  have hvalue := rsqrt_toNat_of_bucket .opt k hm hlo hhi
  rwa [nsteps, Function.iterate_one] at hvalue

/-- In both variants the result is one exact step from an estimate. -/
theorem rsqrt_eq_closedStep_of_estimate (v : Variant) (k : Nat) {m : Memory} (hm : HoldsTable m) {x : U32} {e : U5}
    (hlo : 2 ^ e.toNat ≤ x.toNat) (hhi : x.toNat < 2 ^ (e.toNat + 1)) :
    ∃ y, IsEstimate x.toNat y ∧ (rsqrt v k m x).toNat = closedStep x.toNat y := by
  cases v with
  | ref => exact ⟨_, isEstimate_first e.isLt hlo hhi, rsqrtRef_toNat_of_bucket k hm hlo hhi⟩
  | opt => exact ⟨_, isEstimate_tableSeed e.isLt hlo hhi, rsqrtOpt_toNat_of_bucket k hm hlo hhi⟩

/-! The range of the result (R106 a), and the invariant. -/

/-- The sentinel: the operand 1 gives 65536 in both variants (R106 a). -/
theorem rsqrt_one (v : Variant) (k : Nat) {m : Memory} (hm : HoldsTable m) : (rsqrt v k m 1#32).toNat = 65536 := by
  rw [rsqrt_toNat_of_bucket v k hm (e := 0#5) (by decide) (by decide)]
  cases v <;> rfl

/-- Every other non-zero operand gives a positive result below the sentinel. -/
theorem rsqrt_range_of_ne_one (v : Variant) (k : Nat) {m : Memory} (hm : HoldsTable m) {x : U32} (hx : x ≠ 0#32)
    (hx1 : x ≠ 1#32) : 1 ≤ (rsqrt v k m x).toNat ∧ (rsqrt v k m x).toNat ≤ 46341 := by
  obtain ⟨e, hlo, hhi⟩ := exists_bucket hx
  obtain ⟨y, hy, hvalue⟩ := rsqrt_eq_closedStep_of_estimate v k hm hlo hhi
  have hx2 : 2 ≤ x.toNat := by bv_omega
  rw [hvalue]
  exact ⟨one_le_closedStep x.isLt hy.pos hy.sq_lt, closedStep_le_of_two_le hx2 hy.le hy.sq_lt⟩

/-- R106 a, with the two exact values. -/
theorem rsqrt_range (v : Variant) (k : Nat) {m : Memory} (hm : HoldsTable m) (x : U32) :
    (rsqrt v k m x).toNat ≤ 65536 ∧ (rsqrt v k m x = 0#32 ↔ x = 0#32) ∧
      ((rsqrt v k m x).toNat = 65536 ↔ x = 1#32) := by
  by_cases hx : x = 0#32
  · simp [hx]
  · by_cases hx1 : x = 1#32
    · have hone := rsqrt_one v k hm
      subst hx1
      exact ⟨hone.le, iff_of_false (fun h => by simp [h] at hone) hx, iff_of_true hone rfl⟩
    · obtain ⟨hpos, hle⟩ := rsqrt_range_of_ne_one v k hm hx hx1
      exact ⟨by omega, iff_of_false (fun h => by simp [h] at hpos) hx, iff_of_false (by omega) hx1⟩

/-- Settles O29: the guard answers 0, the operand 1 answers 65536, and every other operand ends at most one above
`65536 / sqrt 2`. -/
theorem resultRangeAndSentinel : Obligations.ResultRangeAndSentinel := by
  intro x y s hm h
  obtain ⟨v, rfl⟩ : ∃ v, y = rsqrt v s.openCount s.table x := by
    obtain ⟨_, h⟩ | ⟨_, h⟩ := h
    · exact ⟨.ref, by simpa [eq_comm, rsqrt] using h⟩
    · exact ⟨.opt, by simpa [eq_comm, rsqrt] using h⟩
  exact rsqrt_range v _ hm x

theorem clz32_toNat_le (v : U32) : (clz32 v).toNat ≤ 32 := by
  by_cases hv : v = 0#32
  · rw [hv, clz32_zero]
    decide
  · obtain ⟨e, hlo, hhi⟩ := exists_bucket hv
    rw [clz32_toNat_of_bucket hlo hhi]
    omega

/-- The invariant's three conditions on a response (R12, R34 b, R56). -/
def ResponseInRange : Response → Prop
  | .y value => value.toNat ≤ 65536
  | .count n => n.toNat ≤ 32
  | .word w => 1 ≤ w.toNat
  | _ => True

/-- With a valid table every operation's response is in range. -/
theorem resultOf_inRange (k : Nat) {m : Memory} (hm : HoldsTable m) (i : Instr) : ResponseInRange (resultOf k m i) := by
  cases i with
  | rsqrtRef x => exact (rsqrt_range .ref k hm x).1
  | rsqrtOpt x => exact (rsqrt_range .opt k hm x).1
  | clz32 v => exact clz32_toNat_le v
  | romrd j =>
    simp only [resultOf, ResponseInRange, hm j]
    exact one_le_tableWord j.isLt
  | _ => trivial

/-- The invariant is about VARIANT's table and the shown response only. -/
theorem inv_iff (s : State) :
    Inv s ↔ s.table.wf = true ∧ HoldsTable s.table ∧ ∀ r, s.response = some r → ResponseInRange r := by
  constructor
  · rintro ⟨hwf, hm, hy, hcount, hword⟩
    refine ⟨hwf, hm, fun r hr => ?_⟩
    cases r with
    | y value => exact hy value hr
    | count n => exact hcount n hr
    | word w => exact hword w hr
    | _ => trivial
  · rintro ⟨hwf, hm, hresp⟩
    exact ⟨hwf, hm, fun _ => hresp _, fun _ => hresp _, fun _ => hresp _⟩

/-- What a step shows: nothing, or the result of the operation asked for. -/
theorem step_response {s t : State} (h : step s = .next t) :
    t.response = none ∨ ∃ i, t.response = some (resultOf s.openCount s.table i) := by
  obtain ⟨_, hreset⟩ | ⟨_, _, hidle⟩ | ⟨r, _, _, hexec⟩ := step_cases s
  · obtain rfl : s.blockReset = t := by simpa [hreset] using h
    exact .inl rfl
  · obtain rfl : s.idle = t := by simpa [hidle] using h
    exact .inl rfl
  · obtain ⟨u, hu, _, hresp, _, _⟩ := exec_effect (decode s.variant r) s
    obtain rfl : u = t := by simpa [hexec, hu] using h
    exact .inr ⟨_, hresp⟩

/-- Settles O37: a step keeps TABLE, and with a valid table every response it can show is in range. -/
theorem stepKeepsBlockInvariant : Obligations.StepKeepsBlockInvariant := by
  intro s t hs hstep
  obtain ⟨hwf, hm, _⟩ := (inv_iff s).1 hs
  obtain ⟨_, htab, _⟩ := step_keepsBlock hstep
  refine (inv_iff t).2 ⟨htab ▸ hwf, htab ▸ hm, fun r hr => ?_⟩
  obtain hnone | ⟨i, hi⟩ := step_response hstep
  · simp [hnone] at hr
  · obtain rfl : resultOf s.openCount s.table i = r := by simpa [hi] using hr
    exact resultOf_inRange _ hm i

/-! The lines of a Newton step at an estimate (R85 to R87). -/

/-- NEWTON.REF's lines from an estimate. -/
theorem newtonRef_lines {x y : U32} (hy : IsEstimate x.toNat y.toNat) :
    y.toNat * y.toNat ≤ 2 ^ 32 ∧ x.toNat * (y.toNat * y.toNat) < 2 ^ 34 ∧
      (xy2Ref x y).toNat = x.toNat * (y.toNat * y.toNat) / 2 ^ 16 ∧ (xy2Ref x y).toNat ≤ 147455 ∧
      (termOf (xy2Ref x y)).toNat = 196608 - (xy2Ref x y).toNat ∧
      y.toNat * (termOf (xy2Ref x y)).toNat ≤ 2 ^ 33 := by
  obtain ⟨_, hle, hsq, hround⟩ := hy
  rw [pow_two] at hsq hround
  have hprod : y.toNat * y.toNat * x.toNat = x.toNat * (y.toNat * y.toNat) := Nat.mul_comm ..
  have hxy2 : (xy2Ref x y).toNat = x.toNat * (y.toNat * y.toNat) / 2 ^ 16 := by
    rw [xy2Ref_toNat, hprod]
    omega
  have hterm : (termOf (xy2Ref x y)).toNat = 196608 - (xy2Ref x y).toNat := by
    rw [termOf_toNat]
    omega
  refine ⟨(Nat.mul_le_mul hle hle).trans (by norm_num), by omega, hxy2, by omega, hterm, ?_⟩
  rw [hterm, hxy2]
  exact hround

/-- NEWTON.OPT's lines from an estimate of 16 bits whose `xy2` is not 0. -/
theorem newtonOpt_lines {x y : U32} (hy : IsEstimate x.toNat y.toNat) (hlt : y.toNat < 2 ^ 16)
    (hge : 65536 ≤ x.toNat * y.toNat ^ 2) {sq xy2 term mp : U32} {y16 : U16} (hy16 : y16 = lowerHalf y)
    (hsq : sq = mul16 y16 y16) (hxy2 : xy2 = xy2Opt x sq) (hterm : term = termOf xy2)
    (hmp : mp = mul16 y16 (lowerHalf term)) :
    upperHalf y = 0#16 ∧ sq.toNat = y.toNat * y.toNat ∧ xy2.toNat = x.toNat * (y.toNat * y.toNat) / 2 ^ 16 ∧
      xy2.toNat ≤ 147455 ∧ term.toNat = 196608 - xy2.toNat ∧ term.toNat < 2 ^ 18 ∧ (termInt term).toNat ≤ 2 ∧
      (yTimesInt y16 (termInt term)).toNat = y.toNat * (term.toNat / 2 ^ 16) ∧
      mp.toNat = y.toNat * (term.toNat % 2 ^ 16) ∧
      (yTimesInt y16 (termInt term)).toNat + 1 + mp.toNat / 2 ^ 16 < 2 ^ 18 := by
  obtain ⟨_, _, hsqlt, hround⟩ := hy
  rw [pow_two] at hsqlt hround hge
  have hy16nat : y16.toNat = y.toNat := by rw [hy16, lowerHalf_toNat, Nat.mod_eq_of_lt hlt]
  have hupper : upperHalf y = 0#16 := BitVec.eq_of_toNat_eq (by rw [upperHalf_toNat, Nat.div_eq_of_lt hlt]; rfl)
  have hsqnat : sq.toNat = y.toNat * y.toNat := by rw [hsq, mul16_toNat, hy16nat]
  have hxy2nat : xy2.toNat = x.toNat * (y.toNat * y.toNat) / 2 ^ 16 := by
    rw [hxy2, xy2Opt_toNat, hsqnat]
    omega
  have htermnat : term.toNat = 196608 - xy2.toNat := by
    rw [hterm, termOf_toNat]
    omega
  have hint : (termInt term).toNat = term.toNat / 2 ^ 16 := by
    rw [termInt_toNat]
    omega
  have hyi : (yTimesInt y16 (termInt term)).toNat = y.toNat * (term.toNat / 2 ^ 16) := by
    rw [yTimesInt_toNat, hy16nat, hint]
  have hmpnat : mp.toNat = y.toNat * (term.toNat % 2 ^ 16) := by rw [hmp, mul16_toNat, hy16nat, lowerHalf_toNat]
  refine ⟨hupper, hsqnat, hxy2nat, by omega, htermnat, by omega, by omega, hyi, hmpnat, ?_⟩
  have hsum : y.toNat * (term.toNat / 2 ^ 16) * 2 ^ 16 + y.toNat * (term.toNat % 2 ^ 16) ≤ 2 ^ 33 :=
    calc y.toNat * (term.toNat / 2 ^ 16) * 2 ^ 16 + y.toNat * (term.toNat % 2 ^ 16)
      _ = y.toNat * (term.toNat / 2 ^ 16 * 2 ^ 16 + term.toNat % 2 ^ 16) := by ring
      _ = y.toNat * term.toNat := by rw [Nat.div_add_mod']
      _ ≤ 2 ^ 33 := by rw [htermnat, hxy2nat]; exact hround
  rw [hyi, hmpnat]
  omega

/-- Settles O26: the seed and the first estimate are estimates of `IsEstimate`, and the seed fits 16 bits. -/
theorem intermediatesNeverWrap : Obligations.IntermediatesNeverWrap := by
  intro m k x hm hx
  obtain ⟨e, hlo, hhi⟩ := exists_bucket hx
  have hseednat := setWidth_seedOpt_toNat k hm hlo hhi
  have hseed := isEstimate_tableSeed e.isLt hlo hhi
  rw [seedRef_eq_seedOpt]
  refine ⟨fun y hy => ?ref, ?opt⟩
  case ref =>
    have hestimate : IsEstimate x.toNat y.toNat := by
      obtain rfl | rfl := hy
      · rwa [hseednat]
      · have hsq := hseed.sq_lt
        rw [newtonRef_toNat_eq_closedStep hx (by rw [hseednat]; omega), hseednat]
        exact isEstimate_first e.isLt hlo hhi
    exact ⟨hestimate.pos, hestimate.le, newtonRef_lines hestimate⟩
  case opt =>
    rintro y sq xy2 term mp y16 rfl hy16 hsq hxy2 hterm hmp
    have hestimate : IsEstimate x.toNat ((seedOpt k m x).setWidth 32).toNat := by rwa [hseednat]
    have hlt : ((seedOpt k m x).setWidth 32).toNat < 2 ^ 16 := hseednat ▸ tableSeed_lt ..
    have hge : 65536 ≤ x.toNat * ((seedOpt k m x).setWidth 32).toNat ^ 2 :=
      hseednat ▸ tableSeed_sq_ge e.isLt hlo hhi
    exact ⟨hestimate.pos, hlt, newtonOpt_lines hestimate hlt hge hy16 hsq hxy2 hterm hmp⟩

end Sys2Proof.Proofs

namespace Sys2Proof.Proofs

open Sys2Proof Sys2Proof.Machine

/-! The error of one exact step, against the true value `T = 65536 / sqrt x` as a real number (R94, R106). -/

/-- `T` is `65536 / sqrt x`. -/
structure TrueValue (x : Nat) (T : ℝ) : Prop where
  pos : 0 < T
  sq : T ^ 2 * x = 2 ^ 32

theorem exists_trueValue {x : Nat} (hx : 0 < x) : ∃ T, TrueValue x T := by
  have hx' : (0 : ℝ) < x := by exact_mod_cast hx
  refine ⟨√(2 ^ 32 / x), by positivity, ?_⟩
  rw [Real.sq_sqrt (by positivity)]
  field_simp

theorem TrueValue.le {x : Nat} {T t : ℝ} (hT : TrueValue x T) {X : Nat} (hx : X ≤ x) (ht : 0 ≤ t)
    (hX : 2 ^ 32 ≤ t ^ 2 * X) : T ≤ t := by
  have hx' : (X : ℝ) ≤ x := by exact_mod_cast hx
  have hsq := hT.sq
  have hpos := hT.pos
  by_contra! hlt
  have hX0 : (0 : ℝ) < X := by
    by_contra! h
    nlinarith [sq_nonneg t]
  have hlt2 : t ^ 2 < T ^ 2 := by gcongr
  nlinarith

theorem TrueValue.ge {x : Nat} {T t : ℝ} (hT : TrueValue x T) {X : Nat} (hx : x ≤ X) (hX : t ^ 2 * X ≤ 2 ^ 32) :
    t ≤ T := by
  have hx' : (x : ℝ) ≤ X := by exact_mod_cast hx
  have hsq := hT.sq
  have hpos := hT.pos
  by_contra! hlt
  have hlt2 : T ^ 2 < t ^ 2 := by gcongr
  have hx0 : (0 : ℝ) < x := by
    by_contra! h
    nlinarith
  nlinarith

/-- An integer near the true value from below, as the statement without a square root. -/
theorem TrueValue.lt_mul_sq {x y a b : Nat} {T : ℝ} (hT : TrueValue x T) (h : a * T < a * y + b) :
    a ^ 2 * 2 ^ 32 < x * (a * y + b) ^ 2 := by
  have hpos := hT.pos
  have hx : (0 : ℝ) < x := by
    by_contra! hx
    have := hT.sq
    nlinarith [sq_nonneg T]
  have hreal : (a : ℝ) ^ 2 * 2 ^ 32 < x * (a * y + b) ^ 2 :=
    calc (a : ℝ) ^ 2 * 2 ^ 32
      _ = x * (a * T) ^ 2 := by rw [← hT.sq]; ring
      _ < x * (a * y + b) ^ 2 := by gcongr
  exact_mod_cast hreal

/-- The truncation of `xy2` only enlarges a step, and its rounding loses less than a half. -/
theorem lt_closedStep {x y : Nat} (hxy : x * y ^ 2 ≤ 3 * 2 ^ 32) :
    y * (3 * 2 ^ 32 - x * y ^ 2) < 2 ^ 32 * (2 * closedStep x y + 1) := by
  have htrunc : 3 * 2 ^ 32 - x * y ^ 2 ≤ 65536 * (196608 - x * y ^ 2 / 65536) := by omega
  have hscaled := Nat.mul_le_mul_left y htrunc
  rw [Nat.mul_left_comm] at hscaled
  simp only [closedStep]
  omega

/-- What a step leaves of the distance to the true value: `(T - y) ^ 2 * (2 * T + y) / (2 * T ^ 2)`, and less than a half for its
rounding. -/
theorem TrueValue.step_error_lt {x y : Nat} {T : ℝ} (hT : TrueValue x T) (hx : 0 < x) (hxy : x * y ^ 2 ≤ 3 * 2 ^ 32) :
    T ^ 2 * (2 * (T - closedStep x y) - 1) < (T - y) ^ 2 * (2 * T + y) := by
  have hx' : (0 : ℝ) < x := by exact_mod_cast hx
  have hstep : (y : ℝ) * (3 * 2 ^ 32 - x * y ^ 2) < 2 ^ 32 * (2 * closedStep x y + 1) := by
    have h := lt_closedStep hxy
    zify [hxy] at h
    exact_mod_cast h
  rw [← hT.sq] at hstep
  have hcancel : (y : ℝ) * (3 * T ^ 2 - y ^ 2) < T ^ 2 * (2 * closedStep x y + 1) := by
    refine lt_of_mul_lt_mul_left ?_ hx'.le
    linarith
  nlinarith

/-! The seed against the true value: how far linear interpolation between R33's words can be off (R81). -/

/-- The square of an estimate is at most `1 + ω` times that of the true value, and at least 0.94 times. -/
structure NearTrue (ω T y : ℝ) : Prop where
  upper : y ^ 2 ≤ (1 + ω) * T ^ 2
  lower : 94 / 100 * T ^ 2 ≤ y ^ 2

/-- The cubic error of a step by the error of the square. Above the true value it is three quarters of its square; below it a little
more, which the 0.94 makes good. -/
theorem NearTrue.cubic_error_le {ω T y : ℝ} (h : NearTrue ω T y) (hω : 1 / 15 ≤ ω) (hT : 0 < T) (hy : 0 ≤ y) :
    (T - y) ^ 2 * (2 * T + y) ≤ 3 / 4 * ω ^ 2 * T ^ 3 := by
  obtain ⟨hupper, hlower⟩ := h
  have hscaled : 4 * T * ((T - y) ^ 2 * (2 * T + y)) ≤ 4 * T * (3 / 4 * ω ^ 2 * T ^ 3) := by
    obtain hge | hlt := le_or_gt T y
    · have hsq : (y ^ 2 - T ^ 2) ^ 2 ≤ (ω * T ^ 2) ^ 2 := pow_le_pow_left₀ (by nlinarith) (by linarith) 2
      have hfactor : 4 * T * (2 * T + y) ≤ 3 * (T + y) ^ 2 := by nlinarith
      calc 4 * T * ((T - y) ^ 2 * (2 * T + y))
        _ = (T - y) ^ 2 * (4 * T * (2 * T + y)) := by ring
        _ ≤ (T - y) ^ 2 * (3 * (T + y) ^ 2) := by gcongr
        _ = 3 * (y ^ 2 - T ^ 2) ^ 2 := by ring
        _ ≤ 3 * (ω * T ^ 2) ^ 2 := by gcongr
        _ = 4 * T * (3 / 4 * ω ^ 2 * T ^ 3) := by ring
    · have hratio : 9 / 10 * T ≤ y := abs_le_of_sq_le_sq' (by nlinarith) hy |>.2
      have hsq : (T ^ 2 - y ^ 2) ^ 2 ≤ (9 / 10 * ω * T ^ 2) ^ 2 :=
        pow_le_pow_left₀ (by nlinarith) (by nlinarith [sq_nonneg T]) 2
      have hfactor : 4 * T * (2 * T + y) * (81 / 100) ≤ 3 * (T + y) ^ 2 := by nlinarith
      have hsmall : 81 / 100 * (4 * T * ((T - y) ^ 2 * (2 * T + y))) ≤
          81 / 100 * (4 * T * (3 / 4 * ω ^ 2 * T ^ 3)) :=
        calc 81 / 100 * (4 * T * ((T - y) ^ 2 * (2 * T + y)))
          _ = (T - y) ^ 2 * (4 * T * (2 * T + y) * (81 / 100)) := by ring
          _ ≤ (T - y) ^ 2 * (3 * (T + y) ^ 2) := by gcongr
          _ = 3 * (T ^ 2 - y ^ 2) ^ 2 := by ring
          _ ≤ 3 * (9 / 10 * ω * T ^ 2) ^ 2 := by gcongr
          _ = 81 / 100 * (4 * T * (3 / 4 * ω ^ 2 * T ^ 3)) := by ring
      linarith
  exact le_of_mul_le_mul_left hscaled (by positivity)

/-- One step from a near estimate. -/
theorem TrueValue.first_step {x y : Nat} {ω T : ℝ} (hT : TrueValue x T) (hx : 0 < x) (hxy : x * y ^ 2 ≤ 3 * 2 ^ 32)
    (hω : 1 / 15 ≤ ω) (hnear : NearTrue ω T y) : T - closedStep x y < 1 / 2 + 3 / 8 * ω ^ 2 * T := by
  have hpos := hT.pos
  have herror := hT.step_error_lt hx hxy
  have hcubic := hnear.cubic_error_le hω hpos (Nat.cast_nonneg y)
  have hcancel : 2 * (T - closedStep x y) - 1 < 3 / 4 * ω ^ 2 * T := by
    refine lt_of_mul_lt_mul_left ?_ (sq_nonneg T)
    calc T ^ 2 * (2 * (T - closedStep x y) - 1)
      _ < 3 / 4 * ω ^ 2 * T ^ 3 := herror.trans_le hcubic
      _ = T ^ 2 * (3 / 4 * ω ^ 2 * T) := by ring
  linarith

/-- The second step, from an estimate at most one above the true value and not far below it. -/
theorem TrueValue.second_step {x y : Nat} {δ T : ℝ} (hT : TrueValue x T) (hx : 0 < x) (hxy : x * y ^ 2 ≤ 3 * 2 ^ 32)
    (hT4 : 4 ≤ T) (habove : y ≤ T + 1) (hbelow : T - y ≤ δ) (hδ : δ ^ 2 ≤ 0.4146 * T) :
    1000 * T < 1000 * closedStep x y + 1122 := by
  have hpos := hT.pos
  have herror := hT.step_error_lt hx hxy
  have hcubic : (T - y) ^ 2 * (2 * T + y) ≤ T ^ 2 * 1.244 := by
    obtain hge | hlt := le_or_gt T y
    · calc (T - y) ^ 2 * (2 * T + y)
        _ ≤ 1 * (3 * T + 1) :=
            mul_le_mul (by nlinarith) (by linarith) (by positivity) (by norm_num)
        _ ≤ T ^ 2 * 1.244 := by nlinarith
    · have hsq : (T - y) ^ 2 ≤ 0.4146 * T := (pow_le_pow_left₀ (by linarith) hbelow 2).trans hδ
      calc (T - y) ^ 2 * (2 * T + y)
        _ ≤ 0.4146 * T * (3 * T) := by
            gcongr
            linarith
        _ ≤ T ^ 2 * 1.244 := by nlinarith
  have hcancel : 2 * (T - closedStep x y) - 1 < 1.244 :=
    lt_of_mul_lt_mul_left (herror.trans_le hcubic) (sq_nonneg T)
  linarith

end Sys2Proof.Proofs

namespace Sys2Proof.Proofs

open Sys2Proof Sys2Proof.Machine

/-! How far the interpolated seed of R33's table is off, by bucket (R77 to R81): it lies on or a little above the chord between the two
table words. -/

/-- The drop of the table over the bucket `e`. -/
def drop (e : Nat) : Nat := (tableWord e).toNat - nextNat e

/-- FRAC's quotient (R77). -/
def fracNat (x e : Nat) : Nat := (x - 2 ^ e) * 2 ^ 16 / 2 ^ e

theorem tableWord_eq_nextNat_add_drop {e : Nat} (he : e < 32) : (tableWord e).toNat = nextNat e + drop e :=
  (Nat.add_sub_cancel' (nextNat_le_tableWord he)).symm

theorem one_le_drop {e : Nat} (he : e < 31) : 1 ≤ drop e := by
  revert e
  decide

/-- The seed is the base word less the interpolated drop, and the subtraction does not borrow (R80). -/
theorem tableSeed_add_part {x e : Nat} (he : e < 32) (hhi : x < 2 ^ (e + 1)) :
    tableSeed x e + drop e * fracNat x e / 2 ^ 16 = (tableWord e).toNat := by
  have hpart : drop e * fracNat x e / 2 ^ 16 ≤ drop e :=
    Nat.div_le_of_le_mul (by rw [Nat.mul_comm]; exact Nat.mul_le_mul_right _ (frac_quotient_lt hhi).le)
  have hword := tableWord_eq_nextNat_add_drop he
  rw [tableSeed, seedNat, ← fracNat, ← drop]
  omega

/-- The two truncations only raise the seed above the chord. -/
theorem chord_le_tableSeed {e r : Nat} (he : e < 32) (hhi : 2 ^ e + r < 2 ^ (e + 1)) :
    2 ^ e * (tableWord e).toNat ≤ 2 ^ e * tableSeed (2 ^ e + r) e + drop e * r := by
  have hfrac : 2 ^ e * fracNat (2 ^ e + r) e ≤ r * 2 ^ 16 := by
    simpa only [fracNat, Nat.add_sub_cancel_left] using Nat.mul_div_le (r * 2 ^ 16) (2 ^ e)
  have hpart : 2 ^ 16 * (drop e * fracNat (2 ^ e + r) e / 2 ^ 16) ≤ drop e * fracNat (2 ^ e + r) e :=
    Nat.mul_div_le ..
  have hscaled := Nat.mul_le_mul_left (drop e) hfrac
  have hscaled' := Nat.mul_le_mul_left (2 ^ e) hpart
  rw [← tableSeed_add_part he hhi]
  nlinarith

/-- The chord's height at `x = 0` times `2 ^ 16`, with room for the two truncations. -/
def chordTop (e : Nat) : Nat := ((tableWord e).toNat + drop e + 1) * 2 ^ 16 + drop e

/-- The two truncations raise the seed above the chord by less than `1 + drop e / 2 ^ 16`. -/
theorem tableSeed_le_chord {e r : Nat} (he : e < 32) (hhi : 2 ^ e + r < 2 ^ (e + 1)) :
    2 ^ 16 * (2 ^ e * tableSeed (2 ^ e + r) e + drop e * (2 ^ e + r)) ≤ 2 ^ e * chordTop e := by
  have hfrac : r * 2 ^ 16 ≤ 2 ^ e * (fracNat (2 ^ e + r) e + 1) := by
    simpa only [fracNat, Nat.add_sub_cancel_left] using
      (Nat.lt_mul_div_succ (r * 2 ^ 16) (Nat.two_pow_pos e)).le
  have hpart : drop e * fracNat (2 ^ e + r) e ≤ 2 ^ 16 * (drop e * fracNat (2 ^ e + r) e / 2 ^ 16 + 1) :=
    (Nat.lt_mul_div_succ _ (by norm_num)).le
  have hscaled := Nat.mul_le_mul_left (drop e) hfrac
  have hscaled' := Nat.mul_le_mul_left (2 ^ e) hpart
  rw [chordTop, ← tableSeed_add_part he hhi]
  nlinarith

/-- Bounds on how far the square of the seed exceeds that of the true value, in thousandths. -/
def spread (e : Nat) : Nat :=
  if e ≤ 10 then 96 else if e ≤ 21 then 144 else if e ≤ 25 then 303 else if e = 26 then 550 else 690

theorem chordTop_cube_le {e : Nat} (he : e < 28) :
    1000 * (4 * 2 ^ e * chordTop e ^ 3) ≤ (1000 + spread e) * 2 ^ 32 * (27 * drop e * (2 ^ 16) ^ 3) := by
  revert e
  decide

/-- The means inequality for `p / 2`, `p / 2` and `q`. -/
theorem mul_sq_le_add_cube (p q : Nat) : 27 * (q * p ^ 2) ≤ 4 * (p + q) ^ 3 := by
  zify
  nlinarith [mul_nonneg (sq_nonneg ((p : ℤ) - 2 * q)) (by positivity : (0 : ℤ) ≤ 4 * p + q)]

/-- On the chord the operand times the seed's square is greatest where the means inequality is sharp. -/
theorem tableSeed_sq_le_spread {x e : Nat} (he : e < 28) (hlo : 2 ^ e ≤ x) (hhi : x < 2 ^ (e + 1)) :
    1000 * (x * tableSeed x e ^ 2) ≤ (1000 + spread e) * 2 ^ 32 := by
  obtain ⟨r, rfl⟩ := Nat.exists_eq_add_of_le hlo
  have hchord := tableSeed_le_chord (by omega) hhi
  have hdrop : 0 < drop e := one_le_drop (by omega)
  generalize 2 ^ e + r = x at hchord ⊢
  have hcube : 27 * drop e * (2 ^ 16) ^ 3 * (2 ^ e) ^ 2 * (x * tableSeed x e ^ 2) ≤
      (2 ^ e) ^ 2 * (4 * 2 ^ e * chordTop e ^ 3) :=
    calc 27 * drop e * (2 ^ 16) ^ 3 * (2 ^ e) ^ 2 * (x * tableSeed x e ^ 2)
      _ = 27 * (2 ^ 16 * (drop e * x) * (2 ^ 16 * (2 ^ e * tableSeed x e)) ^ 2) := by ring
      _ ≤ 4 * (2 ^ 16 * (2 ^ e * tableSeed x e) + 2 ^ 16 * (drop e * x)) ^ 3 := mul_sq_le_add_cube ..
      _ ≤ 4 * (2 ^ e * chordTop e) ^ 3 := by
          rw [← Nat.mul_add]
          gcongr
      _ = (2 ^ e) ^ 2 * (4 * 2 ^ e * chordTop e ^ 3) := by ring
  have hpos : 0 < 27 * drop e * (2 ^ 16) ^ 3 * (2 ^ e) ^ 2 :=
    Nat.mul_pos (Nat.mul_pos (Nat.mul_pos (by norm_num) hdrop) (by norm_num)) (by positivity)
  refine Nat.le_of_mul_le_mul_left ?_ hpos
  calc 27 * drop e * (2 ^ 16) ^ 3 * (2 ^ e) ^ 2 * (1000 * (x * tableSeed x e ^ 2))
    _ = 1000 * (27 * drop e * (2 ^ 16) ^ 3 * (2 ^ e) ^ 2 * (x * tableSeed x e ^ 2)) := by ring
    _ ≤ 1000 * ((2 ^ e) ^ 2 * (4 * 2 ^ e * chordTop e ^ 3)) := Nat.mul_le_mul_left _ hcube
    _ = (2 ^ e) ^ 2 * (1000 * (4 * 2 ^ e * chordTop e ^ 3)) := by ring
    _ ≤ (2 ^ e) ^ 2 * ((1000 + spread e) * 2 ^ 32 * (27 * drop e * (2 ^ 16) ^ 3)) :=
        Nat.mul_le_mul_left _ (chordTop_cube_le he)
    _ = 27 * drop e * (2 ^ 16) ^ 3 * (2 ^ e) ^ 2 * ((1000 + spread e) * 2 ^ 32) := by ring

/-- At the chord's two ends the squares are near those of the true values, and so is the product of the ends. -/
theorem tableWord_sq_ge {e : Nat} (he : e < 28) :
    94 * 2 ^ 32 ≤ 100 * (2 ^ e * (tableWord e).toNat ^ 2) ∧ 94 * 2 ^ 32 ≤ 200 * (2 ^ e * nextNat e ^ 2) ∧
      7 * (94 * 2 ^ 32) ≤ 1000 * (2 ^ e * ((tableWord e).toNat * nextNat e)) := by
  revert e
  decide

/-- Between its ends the chord's square times the operand is no lower than at them. `r` and `g` are the distances to the two ends, and the
expanded difference has no negative term. -/
theorem chord_sq_ge {M b n r g : Nat} (hpos : 0 < r + g) (hb : M ≤ 100 * ((r + g) * b ^ 2))
    (hn : M ≤ 200 * ((r + g) * n ^ 2)) (hbn : 7 * M ≤ 1000 * ((r + g) * (b * n))) :
    (r + g) ^ 2 * M ≤ 100 * ((r + g + r) * (b * g + n * r) ^ 2) := by
  refine Nat.le_of_mul_le_mul_left ?_ (show 0 < 10 * (r + g) by omega)
  calc 10 * (r + g) * ((r + g) ^ 2 * M)
    _ ≤ (r + g + r) * (10 * g ^ 2 * M + 2 * g * r * (7 * M) + 5 * r ^ 2 * M) := by
        zify
        nlinarith [(by positivity : (0 : ℤ) ≤ M * (4 * g ^ 2 * r + 3 * g * r ^ 2))]
    _ ≤ (r + g + r) * (10 * g ^ 2 * (100 * ((r + g) * b ^ 2)) + 2 * g * r * (1000 * ((r + g) * (b * n))) +
          5 * r ^ 2 * (200 * ((r + g) * n ^ 2))) := by gcongr
    _ = 10 * (r + g) * (100 * ((r + g + r) * (b * g + n * r) ^ 2)) := by ring

theorem tableSeed_sq_ge_near {x e : Nat} (he : e < 28) (hlo : 2 ^ e ≤ x) (hhi : x < 2 ^ (e + 1)) :
    94 * 2 ^ 32 ≤ 100 * (x * tableSeed x e ^ 2) := by
  obtain ⟨r, rfl⟩ := Nat.exists_eq_add_of_le hlo
  have hchord := chord_le_tableSeed (by omega) hhi
  have hword := tableWord_eq_nextNat_add_drop (e := e) (by omega)
  obtain ⟨hb, hn, hbn⟩ := tableWord_sq_ge he
  obtain ⟨g, hg⟩ : ∃ g, 2 ^ e = r + g := by
    rw [Nat.pow_succ] at hhi
    exact Nat.exists_eq_add_of_le (by omega)
  have hpos : 0 < 2 ^ e := by positivity
  generalize tableSeed (2 ^ e + r) e = y at hchord ⊢
  rw [hg] at hb hn hbn hchord hpos ⊢
  have hends : (tableWord e).toNat * g + nextNat e * r ≤ (r + g) * y := by
    rw [hword] at hchord ⊢
    linarith
  refine Nat.le_of_mul_le_mul_left ?_ (show 0 < (r + g) ^ 2 by positivity)
  calc (r + g) ^ 2 * (94 * 2 ^ 32)
    _ ≤ 100 * ((r + g + r) * ((tableWord e).toNat * g + nextNat e * r) ^ 2) := chord_sq_ge hpos hb hn hbn
    _ ≤ 100 * ((r + g + r) * ((r + g) * y) ^ 2) := by gcongr
    _ = (r + g) ^ 2 * (100 * ((r + g + r) * y ^ 2)) := by ring

theorem TrueValue.nearTrue_tableSeed {x e : Nat} {T : ℝ} (hT : TrueValue x T) (he : e < 28) (hlo : 2 ^ e ≤ x)
    (hhi : x < 2 ^ (e + 1)) : NearTrue (spread e / 1000) T (tableSeed x e) := by
  have hx : (0 : ℝ) < x := by
    have : 0 < x := (Nat.two_pow_pos e).trans_le hlo
    exact_mod_cast this
  have hupper : (1000 : ℝ) * (x * tableSeed x e ^ 2) ≤ (1000 + spread e) * 2 ^ 32 := by
    exact_mod_cast tableSeed_sq_le_spread he hlo hhi
  have hlower : (94 : ℝ) * 2 ^ 32 ≤ 100 * (x * tableSeed x e ^ 2) := by
    exact_mod_cast tableSeed_sq_ge_near he hlo hhi
  rw [← hT.sq] at hupper hlower
  constructor
  · refine le_of_mul_le_mul_left ?_ hx
    linarith
  · refine le_of_mul_le_mul_left ?_ hx
    linarith

end Sys2Proof.Proofs

namespace Sys2Proof.Proofs

open Sys2Proof Sys2Proof.Machine

/-! The error of the result by bucket (R94, R106 b and c). -/

/-- The true values of a range of buckets. -/
theorem TrueValue.mem_of_buckets {x e a b : Nat} {T lo hi : ℝ} (hT : TrueValue x T) (hlo : 2 ^ e ≤ x)
    (hhi : x < 2 ^ (e + 1)) (ha : a ≤ e) (hb : e + 1 ≤ b) (hlow : lo ^ 2 * 2 ^ b ≤ 2 ^ 32) (hpos : 0 ≤ hi)
    (hhigh : 2 ^ 32 ≤ hi ^ 2 * 2 ^ a) : lo ≤ T ∧ T ≤ hi := by
  have hxa : 2 ^ a ≤ x := (Nat.pow_le_pow_right (by omega) ha).trans hlo
  have hxb : x ≤ 2 ^ b := hhi.le.trans (Nat.pow_le_pow_right (by omega) hb)
  exact ⟨hT.ge hxb (by exact_mod_cast hlow), hT.le hxa hpos (by exact_mod_cast hhigh)⟩

/-- What OPT's one step can leave, as a bound on its distance below the true value. -/
noncomputable def firstError (e : Nat) (T : ℝ) : ℝ := 1 / 2 + 3 / 8 * (spread e / 1000) ^ 2 * T

theorem fifteenth_le_spread {e : Nat} : (1 / 15 : ℝ) ≤ spread e / 1000 := by
  have hspread : 96 ≤ spread e := by
    unfold spread
    split_ifs <;> norm_num
  have hcast : (96 : ℝ) ≤ spread e := by exact_mod_cast hspread
  linarith

theorem TrueValue.first_error_lt {x e : Nat} {T : ℝ} (hT : TrueValue x T) (he : e < 28) (hlo : 2 ^ e ≤ x)
    (hhi : x < 2 ^ (e + 1)) : T - closedStep x (tableSeed x e) < firstError e T :=
  hT.first_step ((Nat.two_pow_pos e).trans_le hlo) (tableSeed_bound (by omega) hhi) fifteenth_le_spread
    (hT.nearTrue_tableSeed he hlo hhi)

/-- OPT's error where the true value is large: the bound is met at the largest true value of each range of buckets. -/
theorem TrueValue.firstError_le {x e : Nat} {T : ℝ} (hT : TrueValue x T) (hlo : 2 ^ e ≤ x) (hhi : x < 2 ^ (e + 1))
    (he2 : 2 ≤ e) (he : e < 22) : firstError e T ≤ 118 := by
  unfold firstError
  obtain h10 | h11 : e ≤ 10 ∨ 11 ≤ e := by omega
  · have hs : spread e = 96 := by simp [spread, h10]
    obtain ⟨_, hle⟩ : 1448 ≤ T ∧ T ≤ 32768 :=
      hT.mem_of_buckets hlo hhi he2 (b := 11) (by omega) (by norm_num) (by norm_num) (by norm_num)
    rw [hs]
    norm_num
    linarith
  · have hs : spread e = 144 := by simp [spread, show ¬e ≤ 10 by omega, show e ≤ 21 by omega]
    obtain ⟨_, hle⟩ : 32 ≤ T ∧ T ≤ 1449 :=
      hT.mem_of_buckets hlo hhi h11 (b := 22) (by omega) (by norm_num) (by norm_num) (by norm_num)
    rw [hs]
    norm_num
    linarith

/-- A square of a linear function that lies below a linear function at two points lies below it between them. -/
theorem sq_le_of_ends {c k T lo hi : ℝ} (hlo : lo ≤ T) (hhi : T ≤ hi) (hendlo : (1 / 2 + c * lo) ^ 2 ≤ k * lo)
    (hendhi : (1 / 2 + c * hi) ^ 2 ≤ k * hi) : (1 / 2 + c * T) ^ 2 ≤ k * T := by
  obtain rfl | hlt := (hlo.trans hhi).eq_or_lt
  · rwa [le_antisymm hhi hlo]
  · refine le_of_mul_le_mul_left ?_ (sub_pos.2 hlt)
    have hconvex : 0 ≤ c ^ 2 * ((T - lo) * (hi - T) * (hi - lo)) :=
      mul_nonneg (sq_nonneg c) (mul_nonneg (mul_nonneg (by linarith) (by linarith)) (by linarith))
    have hleft := mul_le_mul_of_nonneg_left hendlo (sub_nonneg.2 hhi)
    have hright := mul_le_mul_of_nonneg_left hendhi (sub_nonneg.2 hlo)
    linarith

/-- The first error is small enough for the second step throughout a range of buckets if it is so for the range's ends. -/
theorem TrueValue.firstError_sq_le_of_ends {x e a b w : Nat} {T lo hi : ℝ} (hT : TrueValue x T) (hlo : 2 ^ e ≤ x)
    (hhi : x < 2 ^ (e + 1)) (ha : a ≤ e) (hb : e + 1 ≤ b) (hw : spread e = w) (hlow : lo ^ 2 * 2 ^ b ≤ 2 ^ 32)
    (hpos : 0 ≤ hi) (hhigh : 2 ^ 32 ≤ hi ^ 2 * 2 ^ a)
    (hendlo : (1 / 2 + 3 / 8 * (w / 1000) ^ 2 * lo) ^ 2 ≤ 0.4146 * lo)
    (hendhi : (1 / 2 + 3 / 8 * (w / 1000) ^ 2 * hi) ^ 2 ≤ 0.4146 * hi) : firstError e T ^ 2 ≤ 0.4146 * T := by
  obtain ⟨hge, hle⟩ := hT.mem_of_buckets hlo hhi ha hb hlow hpos hhigh
  rw [firstError, hw]
  exact sq_le_of_ends hge hle hendlo hendhi

/-- The first error is small enough for the second step, by five ranges of buckets. -/
theorem TrueValue.firstError_sq_le {x e : Nat} {T : ℝ} (hT : TrueValue x T) (hlo : 2 ^ e ≤ x) (hhi : x < 2 ^ (e + 1))
    (he2 : 2 ≤ e) (he : e < 28) : firstError e T ^ 2 ≤ 0.4146 * T := by
  obtain h10 | ⟨h11, h21⟩ | ⟨h22, h25⟩ | rfl | rfl :
      e ≤ 10 ∨ (11 ≤ e ∧ e ≤ 21) ∨ (22 ≤ e ∧ e ≤ 25) ∨ e = 26 ∨ e = 27 := by omega
  · have hw : spread e = 96 := by simp [spread, h10]
    exact hT.firstError_sq_le_of_ends (b := 11) (lo := 1448) (hi := 32768) hlo hhi he2 (by omega) hw
      (by norm_num) (by norm_num) (by norm_num) (by norm_num) (by norm_num)
  · have hw : spread e = 144 := by simp [spread, show ¬e ≤ 10 by omega, h21]
    exact hT.firstError_sq_le_of_ends (b := 22) (lo := 32) (hi := 1449) hlo hhi h11 (by omega) hw
      (by norm_num) (by norm_num) (by norm_num) (by norm_num) (by norm_num)
  · have hw : spread e = 303 := by simp [spread, show ¬e ≤ 10 by omega, show ¬e ≤ 21 by omega, h25]
    exact hT.firstError_sq_le_of_ends (b := 26) (lo := 8) (hi := 32) hlo hhi h22 (by omega) hw
      (by norm_num) (by norm_num) (by norm_num) (by norm_num) (by norm_num)
  · exact hT.firstError_sq_le_of_ends (b := 27) (w := 550) (lo := 5.65) (hi := 8) hlo hhi le_rfl le_rfl rfl
      (by norm_num) (by norm_num) (by norm_num) (by norm_num) (by norm_num)
  · exact hT.firstError_sq_le_of_ends (b := 28) (w := 690) (lo := 4) (hi := 5.66) hlo hhi le_rfl le_rfl rfl
      (by norm_num) (by norm_num) (by norm_num) (by norm_num) (by norm_num)

/-- An estimate that is at most one above the true value, as a real number. -/
theorem TrueValue.le_add_one {x y : Nat} {T : ℝ} (hT : TrueValue x T) (hx : 0 < x) (hy : x * (y - 1) ^ 2 ≤ 2 ^ 32) :
    (y : ℝ) ≤ T + 1 := by
  have hx' : (0 : ℝ) < x := by exact_mod_cast hx
  have hreal : (x : ℝ) * ((y - 1 : Nat) : ℝ) ^ 2 ≤ x * T ^ 2 := by
    rw [mul_comm (x : ℝ) (T ^ 2), hT.sq]
    exact_mod_cast hy
  have hroot : ((y - 1 : Nat) : ℝ) ≤ T := le_of_sq_le_sq (le_of_mul_le_mul_left hreal hx') hT.pos.le
  have hcast : (y : ℝ) ≤ ((y - 1 : Nat) : ℝ) + 1 := by
    have : y ≤ (y - 1) + 1 := by omega
    exact_mod_cast this
  linarith

/-- The exact result of a schedule is at most one above the true value. -/
theorem IsEstimate.closedStep_sub_one {x y : Nat} (hy : IsEstimate x y) : x * (closedStep x y - 1) ^ 2 ≤ 2 ^ 32 :=
  closedStep_sub_one_bound hy.le (by have := hy.sq_lt; omega)

/-- R106 c: OPT's result is above `T - 118.23`. The three operands of the buckets 0 and 1 are computed; from the bucket 22 on the true
value itself is below the bound. -/
theorem opt_near {x e : Nat} (he : e < 32) (hlo : 2 ^ e ≤ x) (hhi : x < 2 ^ (e + 1)) :
    10 ^ 4 * 2 ^ 32 < x * (100 * closedStep x (tableSeed x e) + 11823) ^ 2 := by
  have hx : 0 < x := (Nat.two_pow_pos e).trans_le hlo
  obtain rfl | rfl | ⟨he2, he22⟩ | he22 : e = 0 ∨ e = 1 ∨ (2 ≤ e ∧ e < 22) ∨ 22 ≤ e := by omega
  · obtain rfl : x = 1 := by omega
    decide
  · obtain rfl | rfl : x = 2 ∨ x = 3 := by omega
    · decide
    · decide
  · obtain ⟨T, hT⟩ := exists_trueValue hx
    have hfirst := hT.first_error_lt (by omega) hlo hhi
    have hbound := hT.firstError_le hlo hhi he2 he22
    have hnear := hT.lt_mul_sq (a := 100) (b := 11823) (y := closedStep x (tableSeed x e)) (by push_cast; linarith)
    omega
  · have hx22 : 2 ^ 22 ≤ x := (Nat.pow_le_pow_right (by omega) he22).trans hlo
    calc 10 ^ 4 * 2 ^ 32
      _ < 2 ^ 22 * 11823 ^ 2 := by norm_num
      _ ≤ x * (100 * closedStep x (tableSeed x e) + 11823) ^ 2 :=
          Nat.mul_le_mul hx22 (Nat.pow_le_pow_left (by omega) 2)

/-- In the bucket 28 the seed is 4, and two steps end at 3 or 4. -/
theorem three_le_bucket_28 {x : Nat} (hlo : 2 ^ 28 ≤ x) (hhi : x < 2 ^ 29) :
    3 ≤ closedStep x (closedStep x (tableSeed x 28)) := by
  have hbase : tableSeed x 28 ≤ 4 := tableSeed_le x 28
  have hnext : 3 < tableSeed x 28 := nextNat_lt_tableSeed (e := 28) (by norm_num) hhi
  obtain hseed : tableSeed x 28 = 4 := by omega
  have hlow : 2 ≤ closedStep x 4 := by
    simp only [closedStep]
    omega
  have hhigh : closedStep x 4 ≤ 4 := by
    simp only [closedStep]
    omega
  have hfirst : closedStep x 4 = 2 ∨ closedStep x 4 = 3 ∨ closedStep x 4 = 4 := by omega
  rw [hseed]
  rcases hfirst with h | h | h
  · rw [h]
    simp only [closedStep]
    omega
  · rw [h]
    simp only [closedStep]
    omega
  · rw [h, h]
    norm_num

/-- In the bucket 29 the seed is 3, and two steps end at 1 only for operands whose true value is below 2.1213. -/
theorem two_le_or_large_bucket_29 {x : Nat} (hlo : 2 ^ 29 ≤ x) (hhi : x < 2 ^ 30) :
    2 ≤ closedStep x (closedStep x (tableSeed x 29)) ∨ 954444459 ≤ x := by
  have hbase : tableSeed x 29 ≤ 3 := tableSeed_le x 29
  have hnext : 2 < tableSeed x 29 := nextNat_lt_tableSeed (e := 29) (by norm_num) hhi
  obtain hseed : tableSeed x 29 = 3 := by omega
  have hfirst : closedStep x 3 = 2 ∨ closedStep x 3 = 3 ∨ 954444459 ≤ x := by
    simp only [closedStep]
    omega
  rw [hseed]
  rcases hfirst with h | h | h
  · rw [h]
    simp only [closedStep]
    omega
  · rw [h, h]
    norm_num
  · exact .inr h

/-- R106 b: REF's result is above `T - 1.122`. Where the true value is 4 or less, the few possible results are computed. -/
theorem ref_near {x e : Nat} (he : e < 32) (hlo : 2 ^ e ≤ x) (hhi : x < 2 ^ (e + 1)) :
    10 ^ 6 * 2 ^ 32 < x * (1000 * closedStep x (closedStep x (tableSeed x e)) + 1122) ^ 2 := by
  have hx : 0 < x := (Nat.two_pow_pos e).trans_le hlo
  have hfirst := isEstimate_first he hlo hhi
  have of_le {X Y : Nat} (hX : X ≤ x) (hY : Y ≤ closedStep x (closedStep x (tableSeed x e)))
      (h : 10 ^ 6 * 2 ^ 32 < X * (1000 * Y + 1122) ^ 2) :
      10 ^ 6 * 2 ^ 32 < x * (1000 * closedStep x (closedStep x (tableSeed x e)) + 1122) ^ 2 :=
    h.trans_le (Nat.mul_le_mul hX (Nat.pow_le_pow_left (by omega) 2))
  have hone : 1 ≤ closedStep x (closedStep x (tableSeed x e)) :=
    one_le_closedStep (hhi.trans_le (Nat.pow_le_pow_right (by omega) he)) hfirst.pos hfirst.sq_lt
  obtain rfl | rfl | ⟨he2, he28⟩ | rfl | rfl | he30 :
      e = 0 ∨ e = 1 ∨ (2 ≤ e ∧ e < 28) ∨ e = 28 ∨ e = 29 ∨ 30 ≤ e := by omega
  · obtain rfl : x = 1 := by omega
    decide
  · obtain rfl | rfl : x = 2 ∨ x = 3 := by omega
    · decide
    · decide
  · obtain ⟨T, hT⟩ := exists_trueValue hx
    have hT4 : 4 ≤ T := hT.ge (hhi.le.trans (Nat.pow_le_pow_right (by omega) he28)) (by norm_num)
    have habove := hT.le_add_one hx (isEstimate_tableSeed he hlo hhi).closedStep_sub_one
    have hsecond := hT.second_step hx (by have := hfirst.sq_lt; omega) hT4 habove (hT.first_error_lt he28 hlo hhi).le
      (hT.firstError_sq_le hlo hhi he2 he28)
    have hnear := hT.lt_mul_sq (a := 1000) (b := 1122) (by exact_mod_cast hsecond)
    omega
  · exact of_le hlo (three_le_bucket_28 hlo hhi) (by norm_num)
  · obtain htwo | hlarge := two_le_or_large_bucket_29 hlo hhi
    · exact of_le hlo htwo (by norm_num)
    · exact of_le hlarge hone (by norm_num)
  · exact of_le ((Nat.pow_le_pow_right (by omega) he30).trans hlo) hone (by norm_num)

/-- Settles O30: a step ends at most one above the true value, and below it a step leaves about three eighths of the squared relative
error of the estimate's square, which for the seed is bounded by the chord between two table words. -/
theorem resultNearTrueValue : Obligations.ResultNearTrueValue := by
  intro x s hm hx
  obtain ⟨e, hlo, hhi⟩ := exists_bucket hx
  refine ⟨fun _ => ⟨_, responseOf_exec .., ?_, ?_⟩, fun _ => ⟨_, responseOf_exec .., ?_, ?_⟩⟩
  · rw [rsqrtRef_toNat_of_bucket _ hm hlo hhi]
    exact (isEstimate_first e.isLt hlo hhi).closedStep_sub_one
  · rw [rsqrtRef_toNat_of_bucket _ hm hlo hhi]
    exact ref_near e.isLt hlo hhi
  · rw [rsqrtOpt_toNat_of_bucket _ hm hlo hhi]
    exact (isEstimate_tableSeed e.isLt hlo hhi).closedStep_sub_one
  · rw [rsqrtOpt_toNat_of_bucket _ hm hlo hhi]
    exact opt_near e.isLt hlo hhi

end Sys2Proof.Proofs
